-- ==== Sys2Proof/Word.lean ====
section
/-! DEFINITION. The word types of the block (spec rule R9): `uN` and `sN` fields are bit vectors of their stated width.
Every wider computation is done in `Nat` or `Int` and narrowed explicitly when a register is written. -/

namespace Sys2Proof

/-- A u8 quantity: a patch byte, a sample, a modulation source value. -/
abbrev Byte := BitVec 8

/-- A 16-bit register (u16, or s16 read through `BitVec.toInt`). -/
abbrev Half := BitVec 16

/-- A command word of the host command port (R140). -/
abbrev Word := BitVec 32

end Sys2Proof
end

