-- ==== Sys2Proof/Config.lean ====
section
/-! DEFINITION. The configuration parameters of rule R7, as plain data that `State` carries and no step writes, and the free
values of the model (opaque constants, so that nothing can evaluate them). R7: a parameter marked OPEN has no value in the
source, so "the model takes it as an argument": every definition that depends on one reads it from the configuration of its
state, and a claim about every state is a claim about every configuration. -/

namespace Sys2Proof

/-- One of the two envelopes of the voice (R11): e = 0 is ENV1, e = 1 is ENV2. -/
inductive EnvId where
  | env1
  | env2
  deriving DecidableEq, Repr

/-- One of the two LFOs (R11): i = 0 is LFO1, i = 1 is LFO2. -/
inductive LfoId where
  | lfo1
  | lfo2
  deriving DecidableEq, Repr

/-- A value of TICKS_PER_STEP: R8 wants every one at least 1. -/
abbrev StepTicks := { n : Nat // 1 ≤ n }

/-- A value of ENV_INC: R8 wants every one in 0..16384. -/
abbrev EnvStep := Fin 16385

/-- The configuration parameters of R7. A table is a list that gives the values of a function from its first legal index on
(the accessors of Machine/Params.lean say which index that is); every function of R7's finite index ranges is such a list.
`numVoices`, `numOscs`, the widths, `NUM_STEPS`, `NAME_LEN`, `SYNC_MULT` and `HELD_CAP` are fixed by R7 and are no fields. -/
structure Config where
  /-- NUM_MOD_SLOTS: modulation slots in the patch. -/
  numModSlots   : Nat
  /-- NUM_OSC_ALGS: ids 4 .. NUM_OSC_ALGS−1 render through WAVE_EXT (R280). -/
  numOscAlgs    : Nat
  /-- COSTLY_ALG: the algorithm id that disables sub and noise mixing, if any (R282, R345). -/
  costlyAlg     : Option Byte
  /-- NUM_LFO_WAVES: ids 4 .. NUM_LFO_WAVES−1 render through LFO_WAVE_EXT (R245). -/
  numLfoWaves   : Nat
  /-- PITCH_TABLE(o), o in 0..1535 (R276). -/
  pitchTable    : List Half
  /-- TABLE_BASE: the lowest pitch the table covers (R276). -/
  tableBase     : Nat
  /-- ENV_INC(p), p in 0..127 (R212). -/
  envInc        : List EnvStep
  /-- LFO_RATE_TABLE(r), from r = 16 on (R236). -/
  lfoRate       : List Half
  /-- TICKS_PER_STEP(t), from t = 1 on (R379). -/
  ticksPerStep  : List StepTicks
  /-- CLOCKS_PER_STEP (R394). -/
  clocksPerStep : Nat
  /-- PORTA_TICKS(p), from p = 1 on; PORTA_TICKS(0) = 0 (R7, R311). -/
  portaTicks    : List Nat
  /-- SCALE_TABLE(s, pc): the twelve offsets of scale s, from s = 1 on; scale 0 is all zero (R7, R310). -/
  scales        : List (List Int)
  /-- RHYTHM(n), from n = 1 on; RHYTHM(0) = 0xFFFF, and NUM_RHYTHM_PATTERNS counts them all (R7, R380). -/
  rhythms       : List Half
  /-- LEGATO: legato in non-arpeggiated play (R375, R376). -/
  legato        : Bool
  /-- WHEEL_SCALE_ALL: the last slot is wheel-scaled for every destination (R321, R323). -/
  wheelScaleAll : Bool
  /-- CC_ENV_TARGET: the envelope that controllers 72 and 73 write (R427). -/
  ccEnvTarget   : EnvId
  /-- NOISE_DECIM: audio ticks per noise update (R301). -/
  noiseDecim    : Nat
  /-- SYSEX_HEADER (R155, R492). -/
  sysexHeader   : List Byte
  /-- BLOCK_SIZE: audio ticks per RENDER_BLOCK (R524). -/
  blockSize     : Nat
  /-- RING_SIZE: capacity of the ring buffer (R521). -/
  ringSize      : Nat
  deriving DecidableEq, Repr

/-- WAVE_EXT(alg, phase, aux), the render of oscillator algorithms 4 .. NUM_OSC_ALGS−1 (R7, R280): OPEN, so a free value.
Log entry 2. -/
opaque Config.waveExt : Byte → Half → Byte → Byte

/-- LFO_WAVE_EXT(w, phase), the render of LFO waveforms 4 .. NUM_LFO_WAVES−1 (R7, R245): OPEN, so a free value.
Log entry 2. -/
opaque Config.lfoWaveExt : Byte → Half → Byte

/-- The 16-bit registers into which a rule stores an `Int` that the spec does not bound under every configuration. -/
inductive Reg16 where
  | target
  | glideInc
  | stepTimer
  | rxPos
  deriving DecidableEq, Repr

/-- What a 16-bit register holds after a store of a value that does not fit it. The spec states no result there: a free
value. Log entry 3. -/
opaque Config.unfit : Reg16 → Int → Half

/-- SYSEX_HEADER[j] for a j at or beyond the header's length, which R492 compares with a received byte only when the header
list is empty. The spec states no value there: a free value. Log entry 4. -/
opaque Config.headerBeyond : Nat → Byte

end Sys2Proof
end

