-- ==== Sys2Proof/Syntax.lean ====
section
/-! DEFINITION. The command set (R143, spec/opcode_table.json): one constructor per row, its operands at the exact widths of
rules R141 and R142, so that every term is a legal command (R145: "No field value is illegal in the encoding"). -/

namespace Sys2Proof

/-- The 22 commands of the opcode map, in the table's order. -/
inductive Instr where
  | nop
  | noteOn (ch : BitVec 4) (k v : BitVec 7)
  | noteOff (ch : BitVec 4) (k v : BitVec 7)
  | controlChange (ch : BitVec 4) (k v : BitVec 7)
  | pitchBend (ch : BitVec 4) (v14 : BitVec 14)
  | allSoundOff (ch : BitVec 4)
  | allNotesOff (ch : BitVec 4)
  | resetAllControllers (ch : BitVec 4)
  | omniModeOn (ch : BitVec 4)
  | omniModeOff (ch : BitVec 4)
  | sysexStart
  | sysexByte (b : Byte)
  | sysexEnd
  | setParameter (idx : Half) (val : Byte)
  | getParameter (idx : Half)
  | clock
  | start
  | stop
  | control
  | audio
  | renderBlock
  | setCvInput (n val : Byte)
  deriving DecidableEq, Repr

/-- The opcode byte of each command (R143). -/
def Instr.opcode : Instr → Byte
  | .nop => 0x00
  | .noteOn _ _ _ => 0x01
  | .noteOff _ _ _ => 0x02
  | .controlChange _ _ _ => 0x03
  | .pitchBend _ _ => 0x04
  | .allSoundOff _ => 0x05
  | .allNotesOff _ => 0x06
  | .resetAllControllers _ => 0x07
  | .omniModeOn _ => 0x08
  | .omniModeOff _ => 0x09
  | .sysexStart => 0x0A
  | .sysexByte _ => 0x0B
  | .sysexEnd => 0x0C
  | .setParameter _ _ => 0x0D
  | .getParameter _ => 0x0E
  | .clock => 0x0F
  | .start => 0x10
  | .stop => 0x11
  | .control => 0x12
  | .audio => 0x13
  | .renderBlock => 0x14
  | .setCvInput _ _ => 0x15

/-- The mnemonic of each command, as R143 and R147 write it. -/
def Instr.mnemonic : Instr → String
  | .nop => "NOP"
  | .noteOn _ _ _ => "NOTE_ON"
  | .noteOff _ _ _ => "NOTE_OFF"
  | .controlChange _ _ _ => "CONTROL_CHANGE"
  | .pitchBend _ _ => "PITCH_BEND"
  | .allSoundOff _ => "ALL_SOUND_OFF"
  | .allNotesOff _ => "ALL_NOTES_OFF"
  | .resetAllControllers _ => "RESET_ALL_CONTROLLERS"
  | .omniModeOn _ => "OMNI_MODE_ON"
  | .omniModeOff _ => "OMNI_MODE_OFF"
  | .sysexStart => "SYSEX_START"
  | .sysexByte _ => "SYSEX_BYTE"
  | .sysexEnd => "SYSEX_END"
  | .setParameter _ _ => "SET_PARAMETER"
  | .getParameter _ => "GET_PARAMETER"
  | .clock => "CLOCK"
  | .start => "START"
  | .stop => "STOP"
  | .control => "CONTROL"
  | .audio => "AUDIO"
  | .renderBlock => "RENDER_BLOCK"
  | .setCvInput _ _ => "SET_CV_INPUT"

/-- The operands of each command in R147's field order, as the numbers the assembler writes. -/
def Instr.operands : Instr → List Nat
  | .nop => []
  | .noteOn ch k v => [ch.toNat, k.toNat, v.toNat]
  | .noteOff ch k v => [ch.toNat, k.toNat, v.toNat]
  | .controlChange ch k v => [ch.toNat, k.toNat, v.toNat]
  | .pitchBend ch v14 => [ch.toNat, v14.toNat]
  | .allSoundOff ch => [ch.toNat]
  | .allNotesOff ch => [ch.toNat]
  | .resetAllControllers ch => [ch.toNat]
  | .omniModeOn ch => [ch.toNat]
  | .omniModeOff ch => [ch.toNat]
  | .sysexStart => []
  | .sysexByte b => [b.toNat]
  | .sysexEnd => []
  | .setParameter idx val => [idx.toNat, val.toNat]
  | .getParameter idx => [idx.toNat]
  | .clock => []
  | .start => []
  | .stop => []
  | .control => []
  | .audio => []
  | .renderBlock => []
  | .setCvInput n val => [n.toNat, val.toNat]

end Sys2Proof
end

