-- ==== Sys2Proof/WellFormed.lean ====
section
/-! DEFINITION. Well-formedness. Of a command there is nothing to check (R145). Of a configuration there is all of R8: "A
model refuses an ill-formed configuration"; `step` asks `Config.wf` before it moves. -/

namespace Sys2Proof

/-- R145: no field value is illegal, and the types of `Instr` hold exactly the values its fields can hold, so every command
is well formed. -/
def Instr.wf (_ : Instr) : Bool := true

/-- R8: BLOCK_SIZE ≥ 1. -/
def Config.blockSizeOk (c : Config) : Bool := 1 ≤ c.blockSize
/-- R8: RING_SIZE ≥ BLOCK_SIZE. -/
def Config.ringSizeOk (c : Config) : Bool := c.blockSize ≤ c.ringSize
/-- R8: NUM_MOD_SLOTS ≥ 1. -/
def Config.slotsOk (c : Config) : Bool := 1 ≤ c.numModSlots
/-- R8: CLOCKS_PER_STEP ≥ 1. -/
def Config.clocksOk (c : Config) : Bool := 1 ≤ c.clocksPerStep
/-- R8: NOISE_DECIM ≥ 1. -/
def Config.noiseOk (c : Config) : Bool := 1 ≤ c.noiseDecim
/-- R8: the SYSEX_HEADER bytes are each below 0x80. -/
def Config.headerOk (c : Config) : Bool := c.sysexHeader.all (fun b => b.toNat < 0x80)

/-- R8: the configuration is well formed. The widths R8 asks of the tables (PITCH_TABLE and LFO_RATE_TABLE 16 bits, ENV_INC
0..16384, TICKS_PER_STEP at least 1) are the types of their entries, so a table that breaks one cannot be written. -/
def Config.wf (c : Config) : Bool :=
  c.blockSizeOk && c.ringSizeOk && c.slotsOk && c.clocksOk && c.noiseOk && c.headerOk

end Sys2Proof
end

