-- ==== Sys2Proof/Decode.lean ====
section
/-! DEFINITION. Decoding of command words (R140 to R146), total on every word and every list of bytes, and the encoder
(R147). A word with a reserved opcode is rejected by name here; the command port then executes it as NOP (R144). -/

namespace Sys2Proof

/-- Why a decoder gives no command. -/
inductive Reject where
  /-- R144: opcodes 0x16 to 0xFF are reserved. -/
  | reserved (op : Byte)
  /-- Fewer than the four bytes of a command word (R140, R104). -/
  | truncated
  deriving DecidableEq, Repr

/-- What a decoder answers for a word. -/
inductive Decoded where
  | ok (i : Instr)
  | reject (r : Reject)
  deriving DecidableEq, Repr

/-- Bits 31:24, the opcode (R140). -/
def wordOp (w : Word) : Byte := w.extractLsb' 24 8
/-- word[19:16], the channel (R141). -/
def wordCh (w : Word) : BitVec 4 := w.extractLsb' 16 4
/-- word[14:8], a note or controller number (R141). -/
def wordK (w : Word) : BitVec 7 := w.extractLsb' 8 7
/-- word[6:0], a velocity or controller value (R141). -/
def wordV (w : Word) : BitVec 7 := w.extractLsb' 0 7
/-- word[13:0], a pitch-bend value (R141). -/
def wordV14 (w : Word) : BitVec 14 := w.extractLsb' 0 14
/-- word[23:8], a parameter index (R141). -/
def wordIdx (w : Word) : Half := w.extractLsb' 8 16
/-- word[7:0], a byte operand (R141). -/
def wordB (w : Word) : Byte := w.extractLsb' 0 8
/-- word[23:16], a CV input number (R141). -/
def wordN (w : Word) : Byte := w.extractLsb' 16 8

/-- The command a word stands for (R143), or the name of why it stands for none. A bit that the opcode's format does not
name is ignored (R145). -/
def decode (w : Word) : Decoded :=
  match (wordOp w).toNat with
  | 0x00 => .ok .nop
  | 0x01 => .ok (.noteOn (wordCh w) (wordK w) (wordV w))
  | 0x02 => .ok (.noteOff (wordCh w) (wordK w) (wordV w))
  | 0x03 => .ok (.controlChange (wordCh w) (wordK w) (wordV w))
  | 0x04 => .ok (.pitchBend (wordCh w) (wordV14 w))
  | 0x05 => .ok (.allSoundOff (wordCh w))
  | 0x06 => .ok (.allNotesOff (wordCh w))
  | 0x07 => .ok (.resetAllControllers (wordCh w))
  | 0x08 => .ok (.omniModeOn (wordCh w))
  | 0x09 => .ok (.omniModeOff (wordCh w))
  | 0x0A => .ok .sysexStart
  | 0x0B => .ok (.sysexByte (wordB w))
  | 0x0C => .ok .sysexEnd
  | 0x0D => .ok (.setParameter (wordIdx w) (wordB w))
  | 0x0E => .ok (.getParameter (wordIdx w))
  | 0x0F => .ok .clock
  | 0x10 => .ok .start
  | 0x11 => .ok .stop
  | 0x12 => .ok .control
  | 0x13 => .ok .audio
  | 0x14 => .ok .renderBlock
  | 0x15 => .ok (.setCvInput (wordN w) (wordB w))
  | _ => .reject (.reserved (wordOp w))

/-- The word of a command (R147): `op<<24 | A<<16 | B<<8 | C`, every ignored bit 0. -/
def encode : Instr → Word
  | .nop => (0x00 : Byte) ++ 0#24
  | .noteOn ch k v => (0x01 : Byte) ++ 0#4 ++ ch ++ 0#1 ++ k ++ 0#1 ++ v
  | .noteOff ch k v => (0x02 : Byte) ++ 0#4 ++ ch ++ 0#1 ++ k ++ 0#1 ++ v
  | .controlChange ch k v => (0x03 : Byte) ++ 0#4 ++ ch ++ 0#1 ++ k ++ 0#1 ++ v
  | .pitchBend ch v14 => (0x04 : Byte) ++ 0#4 ++ ch ++ 0#2 ++ v14
  | .allSoundOff ch => (0x05 : Byte) ++ 0#4 ++ ch ++ 0#16
  | .allNotesOff ch => (0x06 : Byte) ++ 0#4 ++ ch ++ 0#16
  | .resetAllControllers ch => (0x07 : Byte) ++ 0#4 ++ ch ++ 0#16
  | .omniModeOn ch => (0x08 : Byte) ++ 0#4 ++ ch ++ 0#16
  | .omniModeOff ch => (0x09 : Byte) ++ 0#4 ++ ch ++ 0#16
  | .sysexStart => (0x0A : Byte) ++ 0#24
  | .sysexByte b => (0x0B : Byte) ++ 0#16 ++ b
  | .sysexEnd => (0x0C : Byte) ++ 0#24
  | .setParameter idx val => (0x0D : Byte) ++ idx ++ val
  | .getParameter idx => (0x0E : Byte) ++ idx ++ 0#8
  | .clock => (0x0F : Byte) ++ 0#24
  | .start => (0x10 : Byte) ++ 0#24
  | .stop => (0x11 : Byte) ++ 0#24
  | .control => (0x12 : Byte) ++ 0#24
  | .audio => (0x13 : Byte) ++ 0#24
  | .renderBlock => (0x14 : Byte) ++ 0#24
  | .setCvInput n val => (0x15 : Byte) ++ n ++ 0#8 ++ val

/-- The word's bits that the command's format names, the opcode among them (R141); every other bit is ignored (R145). -/
def Instr.namedBits : Instr → Word
  | .noteOn _ _ _ => 0xFF0F7F7F
  | .noteOff _ _ _ => 0xFF0F7F7F
  | .controlChange _ _ _ => 0xFF0F7F7F
  | .pitchBend _ _ => 0xFF0F3FFF
  | .allSoundOff _ => 0xFF0F0000
  | .allNotesOff _ => 0xFF0F0000
  | .resetAllControllers _ => 0xFF0F0000
  | .omniModeOn _ => 0xFF0F0000
  | .omniModeOff _ => 0xFF0F0000
  | .sysexByte _ => 0xFF0000FF
  | .setParameter _ _ => 0xFFFFFFFF
  | .getParameter _ => 0xFFFFFF00
  | .setCvInput _ _ => 0xFFFF00FF
  | .nop => 0xFF000000
  | .sysexStart => 0xFF000000
  | .sysexEnd => 0xFF000000
  | .clock => 0xFF000000
  | .start => 0xFF000000
  | .stop => 0xFF000000
  | .control => 0xFF000000
  | .audio => 0xFF000000
  | .renderBlock => 0xFF000000

/-- R104: a command word carried as four bytes has byte 0 in bits 31:24. -/
def wordOfBytes (b0 b1 b2 b3 : Byte) : Word := b0 ++ b1 ++ b2 ++ b3

/-- The four bytes that carry a word, byte 0 first (R104). -/
def bytesOfWord (w : Word) : List Byte :=
  [w.extractLsb' 24 8, w.extractLsb' 16 8, w.extractLsb' 8 8, w.extractLsb' 0 8]

/-- Decode the command that a list of bytes starts with; the rest of the list follows it (every command is one word, R146). -/
def decodeBytes : List Byte → Decoded × List Byte
  | b0 :: b1 :: b2 :: b3 :: rest => (decode (wordOfBytes b0 b1 b2 b3), rest)
  | bs => (.reject .truncated, bs)

/-- The command a decoder's answer holds. -/
def Decoded.instr? : Decoded → Option Instr
  | .ok i => some i
  | .reject _ => none

/-- The host's probe: the command the decoder reads from a table word, whose bits the opcode table numbers as R140 does (bit 0
the least significant of the one 32-bit word). -/
def decodeTableWord (nbits w : Nat) : Option Instr :=
  if nbits ≤ 32 then (decodeBytes (bytesOfWord (BitVec.ofNat 32 w))).1.instr? else none

end Sys2Proof
end

