-- ==== Sys2Proof/Machine/Params.lean ====
section
/-! DEFINITION. What the configuration parameters mean: the accessors of the constant lookup tables (R7, R103: read-only), the
patch layout they fix (R34, R40, R109), the default patch (R592) and the configuration that `State.reset` starts with. -/

namespace Sys2Proof.Machine

/-- HELD_CAP, fixed at 16 (R7, R372). -/
def heldCap : Nat := 16

/-- SYNC_MULT(r) = r + 1 (R7, R237). -/
def syncMult (r : Nat) : Nat := r + 1

/-- ENV_INC(p) for p in 0..127 (R212). -/
def envInc (c : Config) (p : Nat) : Nat := (c.envInc.getD p 0).val

/-- LFO_RATE_TABLE(r) for r in 16..255 (R236). -/
def lfoRate (c : Config) (r : Nat) : Half := c.lfoRate.getD (r - 16) 0

/-- TICKS_PER_STEP(t) for t in 1..255 (R379). -/
def ticksPerStep (c : Config) (t : Nat) : Nat := ((c.ticksPerStep[t - 1]?).map Subtype.val).getD 1

/-- PORTA_TICKS(p); PORTA_TICKS(0) = 0 (R7, R311). -/
def portaTicks (c : Config) (p : Nat) : Nat := if p = 0 then 0 else c.portaTicks.getD (p - 1) 0

/-- SCALE_TABLE(s, pc); scale 0 is all zero (R7, R310). -/
def scaleOffset (c : Config) (s pc : Nat) : Int := if s = 0 then 0 else (c.scales.getD (s - 1) []).getD pc 0

/-- NUM_RHYTHM_PATTERNS (R7): RHYTHM(0) and the configured ones. -/
def numRhythms (c : Config) : Nat := c.rhythms.length + 1

/-- RHYTHM(n), a 16-bit step-on mask; RHYTHM(0) = 0xFFFF (R7, R380). -/
def rhythm (c : Config) (n : Nat) : Half := if n = 0 then 0xFFFF else c.rhythms.getD (n - 1) 0

/-- PITCH_TABLE(o) for o in 0..1535 (R276). -/
def pitchTable (c : Config) (o : Nat) : Half := c.pitchTable.getD o 0

/-- PITCH_MIN = 0 (R7). -/
def pitchMin : Int := 0

/-- PITCH_MAX = TABLE_BASE + 1535 (R7). -/
def pitchMax (c : Config) : Int := c.tableBase + 1535

/-- SYSEX_HEADER[j] (R492). -/
def headerByte (c : Config) (j : Nat) : Byte := (c.sysexHeader[j]?).getD (Config.headerBeyond j)

/-- WAVE_EXT (R280), the free value of the configuration. -/
def waveExt (alg : Byte) (phase : Half) (aux : Byte) : Byte := Config.waveExt alg phase aux

/-- LFO_WAVE_EXT (R245), the free value of the configuration. -/
def lfoWaveExt (w : Byte) (phase : Half) : Byte := Config.lfoWaveExt w phase

/-! The patch layout: parameter region, modulation slots, step sequencer, name (R34, R109). -/

/-- Offset of the route byte of slot i (R40, R151). -/
def offRoute (i : Nat) : Nat := 31 + 2 * i
/-- Offset of the amount byte of slot i (R40, R151). -/
def offAmount (i : Nat) : Nat := 32 + 2 * i
/-- First offset of the step-sequencer region: 55 with twelve slots (R40). -/
def offSeq (c : Config) : Nat := 31 + 2 * c.numModSlots
/-- First offset of the name region: 69 with twelve slots (R40). -/
def offName (c : Config) : Nat := offSeq c + 14
/-- PATCH_SIZE = 31 + 2·NUM_MOD_SLOTS + 14 + 8 (R7). -/
def patchSize (c : Config) : Nat := offName c + 8

/-- The parameter region of DEFAULT_PATCH, offsets 0..30 (R40, R592). -/
def defaultParams : List Byte :=
  [0x01, 0x00, 0x00, 0x00, 0x00, 0x00, 0x00, 0x00, 0x00, 0x00, 0x00, 0x7F, 0x00, 0x00, 0x00, 0x00] ++
  [0x00, 0x7F, 0x00, 0x00, 0x00, 0x7F, 0x00, 0x00, 0x10, 0x00, 0x10, 0x00, 0x00, 0x00, 0x00]

/-- The step-sequencer region of DEFAULT_PATCH: tempo 120, OFF, 1, 0, 0, length 16, eight zero step bytes (R40, R592). -/
def defaultSeq : List Byte := [0x78, 0x00, 0x01, 0x00, 0x00, 0x10, 0x00, 0x00, 0x00, 0x00, 0x00, 0x00, 0x00, 0x00]

/-- The name region of DEFAULT_PATCH: "INIT" and four spaces (R40, R592). -/
def defaultName : List Byte := [0x49, 0x4E, 0x49, 0x54, 0x20, 0x20, 0x20, 0x20]

/-- DEFAULT_PATCH[i] (R592). With another NUM_MOD_SLOTS every slot byte is 0 and the later fields keep their values at their
moved offsets. -/
def defaultPatchByte (c : Config) (i : Nat) : Byte :=
  if i < 31 then defaultParams.getD i 0
  else if i < offSeq c then 0
  else if i < offName c then defaultSeq.getD (i - offSeq c) 0
  else defaultName.getD (i - offName c) 0

/-- What a byte of the SysEx receive buffer reads as before anything is written to it: 0 (R48). -/
def rxDefaultByte (_ : Nat) : Byte := 0

/-- The configuration `State.reset` carries. DESIGN CHOICE, log entry 1: the parameters with a default in R7 take it; those
with none take the values of 95_test_vectors.md §0, the only ones the spec writes out. Nothing may rest on these numbers:
a claim about reset is stated of `State.resetOf c` for every configuration c. -/
def defaultConfig : Config where
  numModSlots := 12
  numOscAlgs := 4
  costlyAlg := none
  numLfoWaves := 4
  pitchTable := (List.range 1536).map (fun o => BitVec.ofNat 16 (4096 + o))
  tableBase := 13824
  envInc := (List.range 128).map (fun p => Fin.ofNat 16385 (16384 / (p + 1)))
  lfoRate := (List.range 240).map (fun r => BitVec.ofNat 16 ((r + 1) * 64))
  ticksPerStep := (List.range 255).map (fun t => ⟨max 1 (1440 / (t + 1)), Nat.le_max_left 1 _⟩)
  clocksPerStep := 6
  portaTicks := (List.range 255).map (· + 1)
  scales := []
  rhythms := [0x5555]
  legato := true
  wheelScaleAll := true
  ccEnvTarget := .env1
  noiseDecim := 2
  sysexHeader := [0x7D, 0x01, 0x01]
  blockSize := 4
  ringSize := 8

end Sys2Proof.Machine
end

