-- ==== Sys2Proof/Machine/State.lean ====
section
/-! DEFINITION. The architectural state of the block (10_state.md), as plain data, with the host's command sequence, the
schedule and the record of the outputs beside it (R5, R31, R531), and the state after reset (R590, R591). -/

namespace Sys2Proof.Machine

/-- Why a step can stop with a fault. R550: "The block has no exceptions and no traps", so there is no constructor; no
command, operand, patch value or state of the model faults. -/
inductive Fault : Type
  deriving DecidableEq, Repr

/-- Why a step can be refused. -/
inductive Refusal where
  /-- Raised by a rejected arm of `exec`, for a command that has no meaning yet (safe). No arm of this model raises it. -/
  | notModelled (mnemonic : String)
  /-- Raised by `step` when the configuration of the state breaks a condition of R8: "A model refuses an ill-formed
  configuration" (safe). -/
  | illFormedConfiguration
  deriving DecidableEq, Repr

/-- Bytes by address, in canonical form: addresses strictly rising, no entry equal to what an unlisted address reads as. -/
abbrev Memory := List Host.Cell

/-- Envelope stages (R45, R200). -/
inductive Stage where
  | attack
  | decay
  | sustain
  | release
  | dead
  deriving DecidableEq, Repr

/-- The numeric stage codes of R45. -/
def Stage.code : Stage → Nat
  | .attack => 0
  | .decay => 1
  | .sustain => 2
  | .release => 3
  | .dead => 4

/-- One envelope (R45). The increments are 0..16384. -/
structure Envelope where
  stage : Stage
  value : BitVec 14
  incA  : Nat
  incD  : Nat
  incR  : Nat
  sus   : BitVec 14
  deriving DecidableEq, Repr

/-- One LFO (R43). -/
structure Lfo where
  phase : Half
  inc   : Half
  wave  : Byte
  sh    : Byte
  deriving DecidableEq, Repr

/-- One oscillator (R46). -/
structure Oscillator where
  alg   : Byte
  phase : Half
  inc   : Half
  aux   : Byte
  deriving DecidableEq, Repr

/-- The global modulation-source table `gsrc[0..10]` (R50), ids in field order. -/
structure GlobalSources where
  lfo1     : Byte
  lfo2     : Byte
  wheel    : Byte
  random   : Byte
  bend     : Byte
  seqValue : Byte
  seqGate  : Byte
  cv1      : Byte
  cv2      : Byte
  cv3      : Byte
  cv4      : Byte
  deriving DecidableEq, Repr

/-- The per-voice modulation-source table `vsrc[0..4]`, source ids 11..15 in field order (R51). -/
structure VoiceSources where
  env1     : Byte
  env2     : Byte
  pitch    : Byte
  velocity : Byte
  gate     : Byte
  deriving DecidableEq, Repr

/-- One value for each of the ten additive destinations, ids 0..9 in field order (R52): the table `dst` with u14 values, and
the accumulators `acc` of one control tick with `Int` values (R318). -/
structure Dests (α : Type) where
  cutoff     : α
  resonance  : α
  pwm1       : α
  pwm2       : α
  osc1Pitch  : α
  osc2Pitch  : α
  finePitch  : α
  mixBalance : α
  noise      : α
  sub        : α
  deriving DecidableEq, Repr

/-- The voice (R44), with its two envelopes, its three oscillators and the primary's wrap detector (R46). -/
structure Voice where
  /-- s16: the current (glided) pitch, in pitch units. -/
  pitch       : Half
  /-- s16: the glide target. -/
  target      : Half
  /-- s16: the signed per-tick glide step, 0 when not gliding. -/
  glideInc    : Half
  note        : Byte
  velocity    : BitVec 7
  gate        : Bool
  dead        : Bool
  retriggered : Bool
  vsrc        : VoiceSources
  dst         : Dests (BitVec 14)
  vca         : Byte
  env1        : Envelope
  env2        : Envelope
  /-- The primary oscillator, k = 0. -/
  osc1        : Oscillator
  /-- The secondary oscillator, k = 1. -/
  osc2        : Oscillator
  /-- The sub oscillator, k = 2. -/
  sub         : Oscillator
  /-- The high byte of the primary's phase after its last render. -/
  prevHigh    : Byte
  /-- Set by the primary's last render when its phase wrapped. -/
  wrapped     : Bool
  deriving DecidableEq, Repr

/-- The engine registers (R42). -/
structure Engine where
  omni         : Bool
  wheel        : BitVec 7
  bend         : BitVec 14
  /-- `cv_in[0]`, `cv_in[1]`: the two assignable CV inputs; `cv_in[2]`, `cv_in[3]`: the two external CV pins. -/
  cvIn0        : Byte
  cvIn1        : Byte
  cvIn2        : Byte
  cvIn3        : Byte
  nrpnIndex    : BitVec 14
  rng          : Half
  /-- 0 .. NOISE_DECIM−1. -/
  noiseCtr     : Nat
  noise        : Byte
  gsrc         : GlobalSources
  lfoSyncSteps : Half
  resp         : Byte
  deriving DecidableEq, Repr

/-- A held note (R47, R372). -/
structure HeldNote where
  note     : BitVec 7
  velocity : BitVec 7
  deriving DecidableEq, Repr

/-- The voice controller registers (R47). -/
structure Controller where
  running        : Bool
  extRun         : Bool
  stepIndex      : BitVec 4
  stepTimer      : Half
  arpPos         : Half
  /-- In press order, the most recent note last (R372). -/
  held           : List HeldNote
  /-- 0 .. CLOCKS_PER_STEP−1. -/
  pulseCtr       : Nat
  extPending     : Byte
  ticksSinceStep : Half
  extTps         : Half
  seqValue       : Byte
  seqGate        : Byte
  deriving DecidableEq, Repr

/-- SysEx receiver states (R48, R490). -/
inductive RxState where
  | idle
  | header
  | data
  | success
  | error
  deriving DecidableEq, Repr

/-- The numeric state codes of R48. -/
def RxState.code : RxState → Nat
  | .idle => 0
  | .header => 1
  | .data => 2
  | .success => 3
  | .error => 4

/-- The SysEx receiver (R48). `buf` holds the bytes of `rx_buf` that are not 0. -/
structure Receiver where
  state : RxState
  pos   : Half
  buf   : Memory
  sum   : Byte
  hi    : BitVec 4
  cks   : Byte
  deriving DecidableEq, Repr

/-- The ring buffer, the three control-rate output registers and the consumer's registers (R49). -/
structure Output where
  /-- The FIFO of samples, the oldest first. -/
  ring         : List Byte
  cvCutoff     : Byte
  cvResonance  : Byte
  cvAmplitude  : Byte
  audioOut     : Byte
  pinCutoff    : Byte
  pinResonance : Byte
  pinAmplitude : Byte
  glitchCount  : Half
  displayTick  : Byte
  deriving DecidableEq, Repr

/-- Which agent takes an atomic step (R5): the host, with the next atomic sub-step of its command sequence, or the consumer,
with one `consumer_tick()`. -/
inductive Agent where
  | host
  | consumer
  deriving DecidableEq, Repr

/-- What one consumer step sent to the two output peripherals (R530, R563). -/
structure Emission where
  audio     : Byte
  cutoff    : Byte
  resonance : Byte
  amplitude : Byte
  deriving DecidableEq, Repr

/-- The whole machine. -/
structure State where
  /-- R7: the configuration parameters; no step writes them. -/
  cfg     : Config
  /-- R32: the patch; an unlisted address reads as DEFAULT_PATCH (R592). -/
  patch   : Memory
  /-- R42. -/
  eng     : Engine
  /-- R43. -/
  lfo1    : Lfo
  /-- R43. -/
  lfo2    : Lfo
  /-- R44 to R46, R51, R52. -/
  voice   : Voice
  /-- R47. -/
  ctl     : Controller
  /-- R48. -/
  rx      : Receiver
  /-- R49. -/
  out     : Output
  /-- R31: the commands the host has yet to present, in order; host state, outside the block. -/
  port    : List Word
  /-- R531: the schedule, which agent takes each coming atomic step; an exhausted schedule means the host. Model's own field
  for a run's input. -/
  sched   : List Agent
  /-- R534: what the consumer has sent to the output peripherals so far, the newest first. Model's own field. -/
  emitted : List Emission
  deriving DecidableEq, Repr

/-- R209, R45: an envelope after reset, from the default patch's times (index 0) and sustain 127. -/
def Envelope.resetOf (c : Config) : Envelope where
  stage := .dead
  value := 0
  incA := Sys2Proof.Machine.envInc c 0
  incD := Sys2Proof.Machine.envInc c 0
  incR := Sys2Proof.Machine.envInc c 0
  sus := 16256

/-- R43: an LFO after reset, at the default patch's wave 0 and rate 16. -/
def Lfo.resetOf (c : Config) : Lfo where
  phase := 0
  inc := lfoRate c 16
  wave := 0
  sh := 0

/-- R46, R284: an oscillator after reset. -/
def Oscillator.resetOf (alg : Byte) : Oscillator where
  alg := alg
  phase := 0
  inc := 0
  aux := 0

/-- R44: the voice after reset. -/
def Voice.resetOf (c : Config) : Voice where
  pitch := 7680
  target := 7680
  glideInc := 0
  note := 60
  velocity := 0
  gate := false
  dead := true
  retriggered := false
  vsrc := ⟨0, 0, 0, 0, 0⟩
  dst := ⟨0, 0, 0, 0, 0, 0, 0, 0, 0, 0⟩
  vca := 0
  env1 := Envelope.resetOf c
  env2 := Envelope.resetOf c
  osc1 := Oscillator.resetOf 1
  osc2 := Oscillator.resetOf 0
  sub := Oscillator.resetOf 2
  prevHigh := 0
  wrapped := false

/-- R42: the engine registers after reset. -/
def Engine.reset : Engine where
  omni := false
  wheel := 0
  bend := 8192
  cvIn0 := 0
  cvIn1 := 0
  cvIn2 := 0
  cvIn3 := 0
  nrpnIndex := 0
  rng := 0xACE1
  noiseCtr := 0
  noise := 128
  gsrc := ⟨0, 0, 0, 0, 128, 0, 0, 0, 0, 0, 0⟩
  lfoSyncSteps := 0
  resp := 0

/-- R47: the voice controller after reset. -/
def Controller.reset : Controller where
  running := false
  extRun := false
  stepIndex := 0
  stepTimer := 0
  arpPos := 0
  held := []
  pulseCtr := 0
  extPending := 0
  ticksSinceStep := 0
  extTps := 0
  seqValue := 0
  seqGate := 0

/-- R48: the SysEx receiver after reset. -/
def Receiver.reset : Receiver where
  state := .idle
  pos := 0
  buf := []
  sum := 0
  hi := 0
  cks := 0

/-- R49: the output side after reset. -/
def Output.reset : Output where
  ring := []
  cvCutoff := 0
  cvResonance := 0
  cvAmplitude := 0
  audioOut := 128
  pinCutoff := 0
  pinResonance := 0
  pinAmplitude := 0
  glitchCount := 0
  displayTick := 0

/-- R590, R591: the machine right after reset, for a configuration: the default patch, every register at its reset value, no
command presented yet. -/
def State.resetOf (c : Config) : State where
  cfg := c
  patch := []
  eng := Engine.reset
  lfo1 := Lfo.resetOf c
  lfo2 := Lfo.resetOf c
  voice := Voice.resetOf c
  ctl := Controller.reset
  rx := Receiver.reset
  out := Output.reset
  port := []
  sched := []
  emitted := []

/-- The machine right after reset, with the configuration of log entry 1. -/
def State.reset : State := State.resetOf defaultConfig

end Sys2Proof.Machine
end

