-- ==== Sys2Proof/Machine/Ops.lean ====
section
/-! DEFINITION. The named operations over memory and registers: the byte store in canonical form (R100 to R108), the patch
(R102), stores into 16-bit registers (R9), the ring buffer (R521), the command port (R31) and the random draw (R300). R550:
the block takes no exception, so there is no exception entry here; its one interrupt, the consumer step, is
Machine/Consumer.lean. -/

namespace Sys2Proof.Machine

/-! ## Byte memory -/

/-- The byte at an address; `dflt` is what an unlisted address reads as. -/
def Memory.read (dflt : Nat → Byte) : Memory → Nat → Byte
  | [], a => dflt a
  | (b, v) :: m, a => if a = b then v else Memory.read dflt m a

/-- The memory with the entry of an address taken out. -/
def Memory.erase : Memory → Nat → Memory
  | [], _ => []
  | (b, v) :: m, a => if a = b then m else (b, v) :: Memory.erase m a

/-- The memory with the entry of an address set, in its place in the rising order. -/
def Memory.insert : Memory → Nat → Byte → Memory
  | [], a, x => [(a, x)]
  | (b, v) :: m, a, x => if a < b then (a, x) :: (b, v) :: m else if a = b then (a, x) :: m else (b, v) :: Memory.insert m a x

/-- Write one byte, keeping the canonical form: writing what an unlisted address reads as takes the entry out. -/
def Memory.write (dflt : Nat → Byte) (m : Memory) (a : Nat) (x : Byte) : Memory :=
  if x = dflt a then m.erase a else m.insert a x

/-- The canonical memory of `size` bytes whose byte at each address `a` is `f a`. -/
def Memory.ofFn (dflt : Nat → Byte) (size : Nat) (f : Nat → Byte) : Memory :=
  (List.range size).filterMap (fun a => if f a = dflt a then none else some (a, f a))

/-- The canonical form, from address `lo` on: addresses strictly rising and below `size`, no entry equal to what an unlisted
address reads as. -/
def Memory.wfFrom (dflt : Nat → Byte) (size : Nat) : Nat → Memory → Bool
  | _, [] => true
  | lo, (a, v) :: m => decide (lo ≤ a) && decide (a < size) && decide (v ≠ dflt a) && Memory.wfFrom dflt size (a + 1) m

/-- The canonical form of a memory of `size` bytes. -/
def Memory.wf (dflt : Nat → Byte) (size : Nat) (m : Memory) : Bool := Memory.wfFrom dflt size 0 m

/-! ## The patch -/

/-- `MemRead(PATCH, i, 1)` (R102). -/
def readPatch (s : State) (i : Nat) : Byte := Memory.read (defaultPatchByte s.cfg) s.patch i

/-- `MemWrite(PATCH, i, 1, v)` (R102); every caller checks the bound first (R106). -/
def writePatch (s : State) (i : Nat) (v : Byte) : State :=
  { s with patch := Memory.write (defaultPatchByte s.cfg) s.patch i v }

/-- Byte i of the SysEx receive buffer (R48). -/
def readRx (s : State) (i : Nat) : Byte := Memory.read rxDefaultByte s.rx.buf i

/-! ## Stores into 16-bit registers -/

/-- Store a number into a u16 register. A value that does not fit leaves a free value (log entry 3). -/
def storeU16 (r : Reg16) (x : Nat) : Half := if x < 65536 then BitVec.ofNat 16 x else Config.unfit r x

/-- Store an integer into an s16 register. A value that does not fit leaves a free value (log entry 3). -/
def storeS16 (r : Reg16) (x : Int) : Half := if -32768 ≤ x ∧ x < 32768 then BitVec.ofInt 16 x else Config.unfit r x

/-! ## Unit registers of the state -/

/-- The state with its voice replaced. -/
def State.setVoice (s : State) (v : Voice) : State := { s with voice := v }
/-- The state with its controller replaced. -/
def State.setCtl (s : State) (c : Controller) : State := { s with ctl := c }
/-- The state with its engine registers replaced. -/
def State.setEng (s : State) (e : Engine) : State := { s with eng := e }
/-- The state with its receiver replaced. -/
def State.setRx (s : State) (r : Receiver) : State := { s with rx := r }
/-- The state with its output side replaced. -/
def State.setOut (s : State) (o : Output) : State := { s with out := o }

/-- `Lfo[i]` (R11). -/
def State.lfo (s : State) : LfoId → Lfo
  | .lfo1 => s.lfo1
  | .lfo2 => s.lfo2

/-- The state with `Lfo[i]` replaced. -/
def State.setLfo (s : State) (i : LfoId) (l : Lfo) : State :=
  match i with
  | .lfo1 => { s with lfo1 := l }
  | .lfo2 => { s with lfo2 := l }

/-- `Env[e]` of the voice (R11). -/
def State.env (s : State) : EnvId → Envelope
  | .env1 => s.voice.env1
  | .env2 => s.voice.env2

/-! ## Random numbers -/

/-- The next state of the 16-bit generator (R300). -/
def rngStep (r : Half) : Half := if r.getLsbD 0 then (r >>> 1) ^^^ 0xB400 else r >>> 1

/-- What `rng_next()` returns from the state it leaves: its low byte (R300). -/
def rngOut (r : Half) : Byte := r.extractLsb' 0 8

/-- `rng_next()` (R300): the state after the draw, and the byte drawn. -/
def rngNext (s : State) : State × Byte :=
  let r := rngStep s.eng.rng
  (s.setEng { s.eng with rng := r }, rngOut r)

/-! ## The ring buffer -/

/-- `count`, the samples in the ring buffer (R521). -/
def ringCount (s : State) : Nat := s.out.ring.length

/-- `push(x)` (R521). -/
def ringPush (s : State) (x : Byte) : State := s.setOut { s.out with ring := s.out.ring ++ [x] }

/-! ## The command port -/

/-- The next command the host presents, and the state with it taken off the port; none when it presents nothing (R31). -/
def fetchWord (s : State) : Option (Word × State) :=
  match s.port with
  | [] => none
  | w :: rest => some (w, { s with port := rest })

/-- The schedule from the host's next turn on: the consumer steps before it dropped. -/
def skipConsumer : List Agent → List Agent
  | .consumer :: rest => skipConsumer rest
  | sched => sched

/-- A word as the next command of the host, whose turn is next. -/
def presentNext (s : State) (w : Word) : State := { s with port := w :: s.port, sched := skipConsumer s.sched }

end Sys2Proof.Machine
end

