-- ==== Sys2Proof/Machine/Operands.lean ====
section
/-! DEFINITION. The primitives of rule R10, the 8-bit mixing forms (R341 to R343), the readings of packed patch fields (R12,
R151, R152), the modulation source and destination ids (R50 to R52, R319) and the derived quantities of R55. -/

namespace Sys2Proof.Machine

/-! ## Primitives (R10) -/

/-- `clip(v, lo, hi)`. -/
def clip (v lo hi : Int) : Int := min (max v lo) hi

/-- `v >> k` on an `Int`: the floor of v / 2^k. -/
def shr (v : Int) (k : Nat) : Int := v / (2 ^ k : Int)

/-- `sext_7`: the low seven bits as a two's-complement value (R10, R12). -/
def sext7 (b : Byte) : Int := (b.extractLsb' 0 7).toInt

/-- `sext_8`: the byte as a two's-complement value (R10, R151). -/
def sext8 (b : Byte) : Int := b.toInt

/-- `b & 127`, the reading of a 7-bit field (R40). -/
def low7 (b : Byte) : Nat := (b.extractLsb' 0 7).toNat

/-- `sign(d)` (R311). -/
def signOf (d : Int) : Int := if 0 < d then 1 else if d < 0 then -1 else 0

/-- `div_t(a, b)`: division truncated toward zero (R10). -/
def divT (a b : Int) : Int := a.tdiv b

/-! ## Mixing of samples -/

/-- Cross-fade (R341). -/
def xfade (a b t : Int) : Int := a + shr ((b - a) * t) 8

/-- Ring modulation (R342). -/
def ringMod (s1 s2 : Int) : Int := clip (shr ((s1 - 128) * (s2 - 128)) 7 + 128) 0 255

/-- Cross-fade of two samples by a level (R341). -/
def xfadeByte (a b t : Byte) : Byte := BitVec.ofInt 8 (xfade a.toNat b.toNat t.toNat)

/-- Ring modulation of two samples (R342). -/
def ringByte (a b : Byte) : Byte := BitVec.ofInt 8 (ringMod a.toNat b.toNat)

/-- XOR with balance offset (R343): `s1 ^ wrap_8(s2 + bal)`. -/
def xorByte (s1 s2 bal : Byte) : Byte := s1 ^^^ (s2 + bal)

/-- The top eight bits of a 14-bit value, `x >> 6`. -/
def top8 (x : BitVec 14) : Byte := x.extractLsb' 6 8

/-! ## Modulation slots (R151) -/

/-- A modulation source id (R50, R51): 0..10 global, 11..15 of the voice. -/
inductive Source where
  | lfo1
  | lfo2
  | wheel
  | random
  | bend
  | seqValue
  | seqGate
  | cv1
  | cv2
  | cv3
  | cv4
  | env1
  | env2
  | pitch
  | velocity
  | gate
  deriving DecidableEq, Repr

/-- The source a route byte's low nibble names; every id is valid (R319). -/
def Source.ofNibble (n : BitVec 4) : Source :=
  match n.toNat with
  | 0 => .lfo1
  | 1 => .lfo2
  | 2 => .wheel
  | 3 => .random
  | 4 => .bend
  | 5 => .seqValue
  | 6 => .seqGate
  | 7 => .cv1
  | 8 => .cv2
  | 9 => .cv3
  | 10 => .cv4
  | 11 => .env1
  | 12 => .env2
  | 13 => .pitch
  | 14 => .velocity
  | _ => .gate

/-- An additive destination id, 0..9 (R52). -/
inductive Dest where
  | cutoff
  | resonance
  | pwm1
  | pwm2
  | osc1Pitch
  | osc2Pitch
  | finePitch
  | mixBalance
  | noise
  | sub
  deriving DecidableEq, Repr

/-- What a route byte's high nibble names (R52, R322). -/
inductive Target where
  | additive (d : Dest)
  | vca
  | reserved
  deriving DecidableEq, Repr

/-- The destination of a route byte's high nibble: 0..9 additive, 10 VCA, 11..15 reserved (R320, R322). -/
def Target.ofNibble (n : BitVec 4) : Target :=
  match n.toNat with
  | 0 => .additive .cutoff
  | 1 => .additive .resonance
  | 2 => .additive .pwm1
  | 3 => .additive .pwm2
  | 4 => .additive .osc1Pitch
  | 5 => .additive .osc2Pitch
  | 6 => .additive .finePitch
  | 7 => .additive .mixBalance
  | 8 => .additive .noise
  | 9 => .additive .sub
  | 10 => .vca
  | _ => .reserved

/-- The value of one destination. -/
def Dests.get {α : Type} (t : Dests α) : Dest → α
  | .cutoff => t.cutoff
  | .resonance => t.resonance
  | .pwm1 => t.pwm1
  | .pwm2 => t.pwm2
  | .osc1Pitch => t.osc1Pitch
  | .osc2Pitch => t.osc2Pitch
  | .finePitch => t.finePitch
  | .mixBalance => t.mixBalance
  | .noise => t.noise
  | .sub => t.sub

/-- The table with one destination replaced. -/
def Dests.set {α : Type} (t : Dests α) (d : Dest) (x : α) : Dests α :=
  match d with
  | .cutoff => { t with cutoff := x }
  | .resonance => { t with resonance := x }
  | .pwm1 => { t with pwm1 := x }
  | .pwm2 => { t with pwm2 := x }
  | .osc1Pitch => { t with osc1Pitch := x }
  | .osc2Pitch => { t with osc2Pitch := x }
  | .finePitch => { t with finePitch := x }
  | .mixBalance => { t with mixBalance := x }
  | .noise => { t with noise := x }
  | .sub => { t with sub := x }

/-- The table with a function applied to every destination. -/
def Dests.map {α β : Type} (f : α → β) (t : Dests α) : Dests β where
  cutoff := f t.cutoff
  resonance := f t.resonance
  pwm1 := f t.pwm1
  pwm2 := f t.pwm2
  osc1Pitch := f t.osc1Pitch
  osc2Pitch := f t.osc2Pitch
  finePitch := f t.finePitch
  mixBalance := f t.mixBalance
  noise := f t.noise
  sub := f t.sub

/-- Source value S of a source id (R319, R51). -/
def sourceValue (s : State) : Source → Byte
  | .lfo1 => s.eng.gsrc.lfo1
  | .lfo2 => s.eng.gsrc.lfo2
  | .wheel => s.eng.gsrc.wheel
  | .random => s.eng.gsrc.random
  | .bend => s.eng.gsrc.bend
  | .seqValue => s.eng.gsrc.seqValue
  | .seqGate => s.eng.gsrc.seqGate
  | .cv1 => s.eng.gsrc.cv1
  | .cv2 => s.eng.gsrc.cv2
  | .cv3 => s.eng.gsrc.cv3
  | .cv4 => s.eng.gsrc.cv4
  | .env1 => s.voice.vsrc.env1
  | .env2 => s.voice.vsrc.env2
  | .pitch => s.voice.vsrc.pitch
  | .velocity => s.voice.vsrc.velocity
  | .gate => s.voice.vsrc.gate

/-- `bias(s)` (R319): 128 for LFO1, LFO2 and BEND, 0 for every other source. -/
def bias : Source → Int
  | .lfo1 => 128
  | .lfo2 => 128
  | .bend => 128
  | .wheel => 0
  | .random => 0
  | .seqValue => 0
  | .seqGate => 0
  | .cv1 => 0
  | .cv2 => 0
  | .cv3 => 0
  | .cv4 => 0
  | .env1 => 0
  | .env2 => 0
  | .pitch => 0
  | .velocity => 0
  | .gate => 0

/-- The source of slot i: `r[3:0]` of its route byte (R151, R320). -/
def slotSource (s : State) (i : Nat) : Source := Source.ofNibble ((readPatch s (offRoute i)).extractLsb' 0 4)

/-- The destination of slot i: `r[7:4]` of its route byte (R151, R320). -/
def slotTarget (s : State) (i : Nat) : Target := Target.ofNibble ((readPatch s (offRoute i)).extractLsb' 4 4)

/-- The amount of slot i: `sext_8` of its amount byte (R151, R320). -/
def slotAmount (s : State) (i : Nat) : Int := sext8 (readPatch s (offAmount i))

/-! ## Patch fields by name (R12, R40) -/

/-- P.SEQ_TEMPO. -/
def seqTempo (s : State) : Nat := (readPatch s (offSeq s.cfg)).toNat
/-- P.SEQ_ARP_MODE. -/
def seqArpMode (s : State) : Nat := (readPatch s (offSeq s.cfg + 1)).toNat
/-- P.SEQ_OCTAVES. -/
def seqOctaves (s : State) : Nat := (readPatch s (offSeq s.cfg + 2)).toNat
/-- P.SEQ_PATTERN. -/
def seqPattern (s : State) : Nat := (readPatch s (offSeq s.cfg + 3)).toNat
/-- P.SEQ_SWING. -/
def seqSwing (s : State) : Nat := (readPatch s (offSeq s.cfg + 4)).toNat
/-- P.SEQ_LENGTH. -/
def seqLength (s : State) : Nat := (readPatch s (offSeq s.cfg + 5)).toNat

/-- The value of step k (R152): the low nibble of its byte when k is even, the high nibble when k is odd. -/
def stepValue (s : State) (k : Nat) : BitVec 4 :=
  let b := readPatch s (offSeq s.cfg + 6 + k / 2)
  if k % 2 = 1 then b.extractLsb' 4 4 else b.extractLsb' 0 4

/-- The offset of LFOi_WAVE, 23 + 2i (R40). -/
def offLfoWave : LfoId → Nat
  | .lfo1 => 23
  | .lfo2 => 25

/-- The offset of LFOi_RATE, 24 + 2i (R40). -/
def offLfoRate : LfoId → Nat
  | .lfo1 => 24
  | .lfo2 => 26

/-- The offset b = 15 + 4e of an envelope's fields (R212). -/
def offEnv : EnvId → Nat
  | .env1 => 15
  | .env2 => 19

/-- The rate of an LFO, `PATCH[24 + 2i]` (R236). -/
def lfoRateOf (s : State) (i : LfoId) : Nat := (readPatch s (offLfoRate i)).toNat

/-! ## Derived quantities (R55) -/

/-- `ext_clock = (P.SEQ_TEMPO = 0)`. -/
def extClock (s : State) : Bool := seqTempo s == 0

/-- The effective pattern length, `clip(P.SEQ_LENGTH, 1, 16)`. -/
def patternLen (s : State) : Nat := min (max (seqLength s) 1) 16

/-- The effective octave span, `clip(P.SEQ_OCTAVES, 1, 4)`. -/
def octaveSpan (s : State) : Nat := min (max (seqOctaves s) 1) 4

/-- The ticks-per-step estimate (R392). -/
def tps (s : State) : Nat := if extClock s then max 1 s.ctl.extTps.toNat else ticksPerStep s.cfg (seqTempo s)

end Sys2Proof.Machine
end

