-- ==== Sys2Proof/Machine/Flags.lean ====
section
/-! DEFINITION. The status bits of the block (R53: it has no condition codes) and the mode readings that fold an out-of-range
field into a defined one (R40, R551). -/

namespace Sys2Proof.Machine

/-- `is_dead(e)` (R207). -/
def Envelope.isDead (e : Envelope) : Bool := decide (e.stage = .dead)

/-- `dead`, derived at the end of step (1) of the voice's control tick (R316). -/
def Voice.deadNow (v : Voice) : Bool := v.env1.isDead && v.env2.isDead && !v.retriggered

/-- `wrapped` (R288, R289): the high byte of the primary's phase fell. -/
def wrapDetected (prevHigh high : Byte) : Bool := decide (high.toNat < prevHigh.toNat)

/-- `accept(ch)`, the channel filter (R421); bits 7:4 of KBD_CHANNEL are ignored (R40). -/
def accept (s : State) (ch : BitVec 4) : Bool := s.eng.omni || decide (ch = (readPatch s 30).extractLsb' 0 4)

/-- Arpeggiator modes (R384). -/
inductive ArpMode where
  | off
  | up
  | down
  | upDown
  | random
  deriving DecidableEq, Repr

/-- `arp_mode()` (R384): a value above 4 reads as OFF. -/
def arpMode (s : State) : ArpMode :=
  match seqArpMode s with
  | 1 => .up
  | 2 => .down
  | 3 => .upDown
  | 4 => .random
  | _ => .off

/-- Combination options (R340). -/
inductive Combine where
  | xfade
  | sync
  | ring
  | xor
  deriving DecidableEq, Repr

/-- The combination option, P.OSC1_OPTION (R340): a value above 3 reads as XFADE. -/
def combineOption (s : State) : Combine :=
  match (readPatch s 3).toNat with
  | 1 => .sync
  | 2 => .ring
  | 3 => .xor
  | _ => .xfade

/-- Whether oscillator 1 uses the costly algorithm (R345). -/
def isCostly (s : State) : Bool := decide (s.cfg.costlyAlg = some s.voice.osc1.alg)

/-- Whether the controller should be Running (R370, R378). -/
def wantRunning (s : State) : Bool := if extClock s then s.ctl.extRun else !s.ctl.held.isEmpty

end Sys2Proof.Machine
end

