-- ==== Sys2Proof/Machine/Envelope.lean ====
section
/-! DEFINITION. The envelope generator (40_envelope.md, R200 to R215). -/

namespace Sys2Proof.Machine

/-- `toward(v, t, inc)` (R202): a step of `inc` toward the target that never passes it. In `Nat`, where `v - inc` stops at 0,
which `max` with a target t ≥ 0 makes the same as R202's step in `Int`. -/
def toward (v t inc : Nat) : Nat :=
  if v < t then min (v + inc) t
  else if t < v then max (v - inc) t
  else t

/-- The 14-bit full scale, the target of ATTACK (R201). -/
def fullScale : Nat := 16383

/-- `trigger(e, s)` (R205): forces the stage and keeps the value; a Dead envelope takes only ATTACK. -/
def Envelope.trigger (e : Envelope) (st : Stage) : Envelope :=
  if e.stage = .dead ∧ st ≠ .attack then e else { e with stage := st }

/-- The value moved toward a target, and the stage left for the next one in the render that reaches it (R206). -/
def Envelope.moveTo (e : Envelope) (t inc : Nat) (after : Stage) : Envelope :=
  let v := toward e.value.toNat t inc
  { e with value := BitVec.ofNat 14 v, stage := if v = t then after else e.stage }

/-- `render(e)` (R206). -/
def Envelope.render (e : Envelope) : Envelope :=
  match e.stage with
  | .attack => e.moveTo fullScale e.incA .decay
  | .decay => e.moveTo e.sus.toNat e.incD .sustain
  | .sustain => e
  | .release => e.moveTo 0 e.incR .dead
  | .dead => e

/-- `env8(e)` (R208). -/
def Envelope.env8 (e : Envelope) : Byte := top8 e.value

/-- `kill(e)` (R209). -/
def Envelope.kill (e : Envelope) : Envelope := { e with stage := .dead, value := 0 }

/-- `recompute(e)` (R212), from the envelope's four patch bytes. -/
def Envelope.recompute (c : Config) (attack decay sustain release : Byte) (e : Envelope) : Envelope :=
  { e with
    incA := envInc c (low7 attack)
    incD := envInc c (low7 decay)
    sus := BitVec.ofNat 14 (low7 sustain * 128)
    incR := envInc c (low7 release) }

/-- `recompute(e)` (R212) of one envelope of a state, from its patch. -/
def recomputedEnv (s : State) (e : EnvId) : Envelope :=
  (s.env e).recompute s.cfg (readPatch s (offEnv e)) (readPatch s (offEnv e + 1)) (readPatch s (offEnv e + 2))
    (readPatch s (offEnv e + 3))

/-- `recompute(0); recompute(1)` (R213). -/
def recomputeEnvs (s : State) : State :=
  s.setVoice { s.voice with env1 := recomputedEnv s .env1, env2 := recomputedEnv s .env2 }

end Sys2Proof.Machine
end

