-- ==== Sys2Proof/Machine/Lfo.lean ====
section
/-! DEFINITION. The LFOs (41_lfo.md, R230 to R246). -/

namespace Sys2Proof.Machine

/-- `update(i, w, inc)` (R230): phase and S&H value are kept. -/
def Lfo.update (l : Lfo) (w : Byte) (inc : Half) : Lfo := { l with wave := w, inc := inc }

/-- `reset(i)` (R231): only the phase. -/
def Lfo.zeroPhase (l : Lfo) : Lfo := { l with phase := 0 }

/-- `increment_phase(i)` (R232): the LFO after the advance, and the random generator, which an S&H wrap draws from. -/
def Lfo.advance (l : Lfo) (r : Half) : Lfo × Half :=
  let sum := l.phase.toNat + l.inc.toNat
  let l' : Lfo := { l with phase := l.phase + l.inc }
  if 65536 ≤ sum ∧ l.wave = 3 then ({ l' with sh := rngOut (rngStep r) }, rngStep r) else (l', r)

/-- `render(i)` (R233, R245): an id of NUM_LFO_WAVES or more is no waveform and renders 128, also where NUM_LFO_WAVES is
below 4 (log entry 6). -/
def Lfo.render (c : Config) (l : Lfo) : Byte :=
  if c.numLfoWaves ≤ l.wave.toNat then 128
  else
    match l.wave.toNat with
    | 0 => if l.phase.getLsbD 15 then 255 - l.phase.extractLsb' 7 8 else l.phase.extractLsb' 7 8
    | 1 => l.phase.extractLsb' 8 8
    | 2 => if l.phase.getLsbD 15 then 0 else 255
    | 3 => l.sh
    | _ => lfoWaveExt l.wave l.phase

/-- `increment_phase` of both LFOs, LFO1 first (R232, R450). -/
def advanceLfos (s : State) : State :=
  let a := s.lfo1.advance s.eng.rng
  let b := s.lfo2.advance a.2
  { s with lfo1 := a.1, lfo2 := b.1, eng := { s.eng with rng := b.2 } }

/-- `sync_increment(r, tps)` (R237). -/
def syncIncrement (r tps : Nat) : Half := BitVec.ofInt 16 (clip ((65536 / (syncMult r * tps) : Nat) : Int) 1 65535)

/-- Whether an LFO is step-synced: its rate is below 16 (R236). -/
def isSynced (s : State) (i : LfoId) : Bool := decide (lfoRateOf s i < 16)

/-- `lfo_increment(i)` (R236). -/
def lfoIncrement (s : State) (i : LfoId) : Half :=
  if isSynced s i then syncIncrement (lfoRateOf s i) (tps s) else lfoRate s.cfg (lfoRateOf s i)

/-- `update(i, PATCH[23 + 2i], lfo_increment(i))` (R238). -/
def updateLfo (s : State) (i : LfoId) : State :=
  s.setLfo i ((s.lfo i).update (readPatch s (offLfoWave i)) (lfoIncrement s i))

/-- One LFO's factor in the drift period: its multiplier if it is step-synced (R240). -/
def driftFactor (s : State) (i : LfoId) : Nat := if isSynced s i then syncMult (lfoRateOf s i) else 1

/-- The drift-reset period N (R240), where some LFO is step-synced. -/
def driftPeriod (s : State) : Nat := driftFactor s .lfo1 * driftFactor s .lfo2

/-- An LFO at a drift-correction reset: a step-synced one restarts with the increment of the current tempo (R241). -/
def driftResetLfo (s : State) (i : LfoId) : Lfo :=
  if isSynced s i then { (s.lfo i).zeroPhase with inc := syncIncrement (lfoRateOf s i) (tps s) } else s.lfo i

/-- `drift_step()` (R241). -/
def driftStep (s : State) : State :=
  if !isSynced s .lfo1 && !isSynced s .lfo2 then s.setEng { s.eng with lfoSyncSteps := 0 }
  else if driftPeriod s ≤ s.eng.lfoSyncSteps.toNat + 1 then
    { s with
      lfo1 := driftResetLfo s .lfo1
      lfo2 := driftResetLfo s .lfo2
      eng := { s.eng with lfoSyncSteps := 0 } }
  else s.setEng { s.eng with lfoSyncSteps := s.eng.lfoSyncSteps + 1 }

end Sys2Proof.Machine
end

