-- ==== Sys2Proof/Machine/Oscillator.lean ====
section
/-! DEFINITION. The audio oscillator bank and the noise source (42_oscillator.md, R270 to R302). -/

namespace Sys2Proof.Machine

/-- The number of octave folds k of `pitch_increment(p)` (R276): ceil((TABLE_BASE − p) / 1536), or 0 from TABLE_BASE up. -/
def octaveFolds (c : Config) (p : Int) : Nat :=
  if c.tableBase ≤ p then 0 else ((c.tableBase - p + 1535) / 1536).toNat

/-- `pitch_increment(p)` (R276). -/
def pitchIncrement (c : Config) (p : Int) : Half :=
  let k := octaveFolds c p
  let o := p + 1536 * k - c.tableBase
  pitchTable c o.toNat >>> k

/-- `wave(alg, phase, aux)`, the waveform catalog (R280): an id of NUM_OSC_ALGS or more is no algorithm and renders as NONE
(R40), also where NUM_OSC_ALGS is below 4 (log entry 6). -/
def wave (c : Config) (alg : Byte) (phase : Half) (aux : Byte) : Byte :=
  if c.numOscAlgs ≤ alg.toNat then 128
  else
    match alg.toNat with
    | 0 => 128
    | 1 => phase.extractLsb' 8 8
    | 2 => if (phase.extractLsb' 8 8).toNat < 128 + aux.toNat / 2 then 255 else 0
    | 3 => if phase.getLsbD 15 then 255 - phase.extractLsb' 7 8 else phase.extractLsb' 7 8
    | _ => waveExt alg phase aux

/-- The sample `render(k)` returns, from the phase before the advance (R288). -/
def Oscillator.sample (c : Config) (o : Oscillator) : Byte := wave c o.alg o.phase o.aux

/-- The advance of `render(k)`, modulo 2^16 (R271, R288). -/
def Oscillator.advance (o : Oscillator) : Oscillator := { o with phase := o.phase + o.inc }

/-- `setup_algorithm(k, shape)` (R283). -/
def Oscillator.setup (o : Oscillator) (shape : Byte) : Oscillator := { o with alg := shape }

/-- `reset(k)` of an oscillator (R284). -/
def Oscillator.clear (o : Oscillator) : Oscillator := { o with phase := 0, inc := 0, aux := 0 }

/-- `reset_phase(k)` (R285). -/
def Oscillator.zeroPhase (o : Oscillator) : Oscillator := { o with phase := 0 }

/-- `update(k, aux, pitch)` (R286). -/
def Oscillator.update (c : Config) (o : Oscillator) (aux : Byte) (pitch : Int) : Oscillator :=
  { o with inc := pitchIncrement c pitch, aux := aux }

/-- The advance of the three oscillators in one audio tick, with the primary's wrap detection (R288, R289). -/
def Voice.advanceOscs (v : Voice) : Voice :=
  let high := v.osc1.advance.phase.extractLsb' 8 8
  { v with
    osc1 := v.osc1.advance
    osc2 := v.osc2.advance
    sub := v.sub.advance
    wrapped := wrapDetected v.prevHigh high
    prevHigh := high }

/-- `noise_update()` (R301). -/
def noiseUpdate (s : State) : State :=
  if s.cfg.noiseDecim ≤ s.eng.noiseCtr + 1 then
    let r := rngStep s.eng.rng
    s.setEng { s.eng with noiseCtr := 0, rng := r, noise := rngOut r }
  else s.setEng { s.eng with noiseCtr := s.eng.noiseCtr + 1 }

end Sys2Proof.Machine
end

