-- ==== Sys2Proof/Machine/Voice.lean ====
section
/-! DEFINITION. The voice and the modulation matrix (43_voice.md, R310 to R351). -/

namespace Sys2Proof.Machine

/-! ## Note events -/

/-- `note_pitch(n)` (R310). -/
def notePitch (s : State) (n : Byte) : Int :=
  (n.toNat * 128 : Nat) + scaleOffset s.cfg (readPatch s 28).toNat (n.toNat % 12)

/-- The glide of `Trigger` (R311): how pitch and glide step follow from the new target, the glide duration in ticks and
whether the voice was dead. -/
def Voice.startGlide (v : Voice) (ticks : Nat) (wasDead : Bool) : Voice :=
  if ticks = 0 ∨ wasDead = true then { v with pitch := v.target, glideInc := 0 }
  else
    let d := v.target.toInt - v.pitch.toInt
    if d = 0 then { v with glideInc := 0 }
    else
      let g := storeS16 .glideInc (divT d ticks)
      { v with glideInc := if g = 0 then storeS16 .glideInc (signOf d) else g }

/-- The envelopes of `Trigger` (R311): both restart, unless the trigger is a legato one on a live voice. -/
def Voice.startEnvelopes (v : Voice) (legato : Bool) : Voice :=
  if legato then v
  else { v with env1 := v.env1.trigger .attack, env2 := v.env2.trigger .attack, retriggered := true }

/-- `Trigger(n, vel, legato)` (R311). -/
def voiceTrigger (s : State) (n : Byte) (vel : BitVec 7) (legato : Bool) : State :=
  let wasDead := s.voice.dead
  let v1 : Voice := { s.voice with note := n, velocity := vel, target := storeS16 .target (notePitch s n) }
  let v2 := v1.startEnvelopes (legato && !wasDead)
  let v3 : Voice := { v2 with gate := true, dead := false }
  s.setVoice (v3.startGlide (portaTicks s.cfg (readPatch s 29).toNat) wasDead)

/-- `Release()` (R312). -/
def Voice.release (v : Voice) : Voice :=
  { v with env1 := v.env1.trigger .release, env2 := v.env2.trigger .release, gate := false }

/-- `Release()` on the state. -/
def voiceRelease (s : State) : State := s.setVoice s.voice.release

/-! ## The control tick, steps (1) and (2) -/

/-- Step (1): both envelopes render, then `dead` is derived and `retriggered` cleared (R314, R316). -/
def Voice.renderEnvelopes (v : Voice) : Voice :=
  let w : Voice := { v with env1 := v.env1.render, env2 := v.env2.render }
  { w with dead := w.deadNow, retriggered := false }

/-- Step (2): the pitch glide (R317). -/
def Voice.glide (v : Voice) : Voice :=
  if 0 < v.glideInc.toInt ∧ v.target.toInt ≤ v.pitch.toInt + v.glideInc.toInt then
    { v with pitch := v.target, glideInc := 0 }
  else if v.glideInc.toInt < 0 ∧ v.pitch.toInt + v.glideInc.toInt ≤ v.target.toInt then
    { v with pitch := v.target, glideInc := 0 }
  else { v with pitch := v.pitch + v.glideInc }

/-- The per-voice sources, refreshed after step (2) (R315). -/
def Voice.refreshSources (v : Voice) : Voice :=
  { v with
    vsrc :=
      { env1 := v.env1.env8
        env2 := v.env2.env8
        pitch := BitVec.ofInt 8 (clip (shr v.pitch.toInt 6) 0 255)
        velocity := BitVec.ofNat 8 (v.velocity.toNat * 2)
        gate := if v.gate then 255 else 0 } }

/-! ## The modulation matrix, steps (3) to (5) -/

/-- The accumulators of one control tick (R318): `acc[0..9]` and `g_vca`. -/
structure Matrix where
  acc : Dests Int
  vca : Int
  deriving DecidableEq, Repr

/-- A 7-bit patch field scaled to the 14-bit range (R318). -/
def scaled7 (s : State) (i : Nat) : Int := (low7 (readPatch s i) * 128 : Nat)

/-- Step (3): the initial accumulator values (R318). -/
def initialMatrix (s : State) : Matrix where
  acc :=
    { cutoff := scaled7 s 11
      resonance := scaled7 s 12
      pwm1 := scaled7 s 1
      pwm2 := scaled7 s 5
      osc1Pitch := 8192
      osc2Pitch := 8192
      finePitch := 8192
      mixBalance := scaled7 s 8
      noise := scaled7 s 10
      sub := scaled7 s 9 }
  vca := 255

/-- The amount of an additive slot: wheel-scaled when it is the last one and WHEEL_SCALE_ALL holds (R321, R323). -/
def additiveAmount (wheelAll : Bool) (wheel : Byte) (amt : Int) (last : Bool) : Int :=
  if last && wheelAll then shr (amt * wheel.toNat) 8 else amt

/-- `additive(d, s, S, amt, last)` (R321), with the scaled amount e. -/
def Matrix.additive (m : Matrix) (d : Dest) (src : Source) (value : Byte) (e : Int) : Matrix :=
  { m with acc := m.acc.set d (m.acc.get d + (value.toNat - bias src) * e) }

/-- `vca_combine(S, amt, last)` (R324). -/
def vcaCombine (wheel : Byte) (gain : Int) (value : Int) (amt : Int) (last : Bool) : Int :=
  let a := (amt.natAbs : Int)
  let value' := if amt < 0 then 255 - value else value
  let a' := if last then shr (a * wheel.toNat) 8 else a
  let t := min 255 (2 * a')
  let g := xfade 255 value' t
  shr (gain * (g + 1)) 8

/-- One slot of step (4) (R320): skipped when its amount is 0 or its destination reserved (R322). -/
def applySlot (s : State) (m : Matrix) (i : Nat) : Matrix :=
  let amt := slotAmount s i
  let src := slotSource s i
  let value := sourceValue s src
  let last := decide (i = s.cfg.numModSlots - 1)
  if amt = 0 then m
  else
    match slotTarget s i with
    | .additive d => m.additive d src value (additiveAmount s.cfg.wheelScaleAll s.eng.gsrc.wheel amt last)
    | .vca => { m with vca := vcaCombine s.eng.gsrc.wheel m.vca value.toNat amt last }
    | .reserved => m

/-- Step (4): every slot, in stored order (R320). -/
def applySlots (s : State) (m : Matrix) : Matrix := (List.range s.cfg.numModSlots).foldl (applySlot s) m

/-- Step (5): the two hardcoded modulations of the cutoff (R326). -/
def hardcoded (s : State) (m : Matrix) : Matrix :=
  { m with
    acc :=
      { m.acc with
        cutoff := m.acc.cutoff + s.voice.env1.env8.toNat * low7 (readPatch s 13)
          + (s.eng.gsrc.lfo2.toNat - 128) * low7 (readPatch s 14) } }

/-- A destination's accumulator clipped to 14 bits (R327). -/
def clip14 (x : Int) : BitVec 14 := BitVec.ofInt 14 (clip x 0 16383)

/-- The matrix of one control tick, from initial values to hardcoded modulations (R313 steps (3) to (5)). -/
def matrixOf (s : State) : Matrix := hardcoded s (applySlots s (initialMatrix s))

/-- The only write of `dst` and `vca` (R327). -/
def resolveMatrix (s : State) : State :=
  s.setVoice { s.voice with dst := (matrixOf s).acc.map clip14, vca := BitVec.ofInt 8 (matrixOf s).vca }

/-! ## Step (6): pitches -/

/-- `fold(p)` (R331), both loops in closed form: whole octaves added while p < PITCH_MIN, then taken off while
p > PITCH_MAX. -/
def fold (c : Config) (p : Int) : Int :=
  let q := if p < pitchMin then p + 1536 * ((pitchMin - p + 1535) / 1536) else p
  if pitchMax c < q then q - 1536 * ((q - pitchMax c + 1535) / 1536) else q

/-- The keyboard octave and the fine pitch, common to both oscillators (R330). -/
def commonPitch (s : State) : Int :=
  sext7 (readPatch s 27) * 1536 + shr (s.voice.dst.finePitch.toNat - 8192) 6

/-- p1, the composed pitch of oscillator 1 (R330). -/
def pitch1 (s : State) : Int :=
  s.voice.pitch.toInt + sext7 (readPatch s 2) * 128 + commonPitch s + shr (s.voice.dst.osc1Pitch.toNat - 8192) 3

/-- p2, the composed pitch of oscillator 2, with its detune (R330). -/
def pitch2 (s : State) : Int :=
  s.voice.pitch.toInt + sext7 (readPatch s 6) * 128 + commonPitch s + shr (s.voice.dst.osc2Pitch.toNat - 8192) 3
    + low7 (readPatch s 7)

/-- p3, the sub oscillator's pitch: an octave below p1 (R330, R292). -/
def pitch3 (s : State) : Int := pitch1 s - 1536

/-- Step (6): the oscillator updates (R332). -/
def updateOscs (s : State) : State :=
  s.setVoice { s.voice with
    osc1 := s.voice.osc1.update s.cfg (top8 s.voice.dst.pwm1) (fold s.cfg (pitch1 s))
    osc2 := s.voice.osc2.update s.cfg (top8 s.voice.dst.pwm2) (fold s.cfg (pitch2 s))
    sub := s.voice.sub.update s.cfg 0 (fold s.cfg (pitch3 s)) }

/-- `Control()` of the voice (R313). -/
def voiceControl (s : State) : State :=
  updateOscs (resolveMatrix (s.setVoice s.voice.renderEnvelopes.glide.refreshSources))

/-- `out_cutoff` (R333). -/
def outCutoff (s : State) : Byte := top8 s.voice.dst.cutoff
/-- `out_resonance` (R333). -/
def outResonance (s : State) : Byte := top8 s.voice.dst.resonance
/-- `out_amplitude` (R333). -/
def outAmplitude (s : State) : Byte :=
  BitVec.ofNat 8 (s.voice.env2.env8.toNat * (s.voice.vca.toNat + 1) / 256)

/-! ## The audio tick -/

/-- The combination of the samples of oscillators 1 and 2 (R340). -/
def combine (opt : Combine) (s1 s2 bal : Byte) : Byte :=
  match opt with
  | .xfade => xfadeByte s1 s2 bal
  | .sync => xfadeByte s1 s2 bal
  | .ring => ringByte s1 s2
  | .xor => xorByte s1 s2 bal

/-- The sub and noise mix (R345): skipped when oscillator 1 uses the costly algorithm. -/
def mixSubNoise (s : State) (m s3 : Byte) : Byte :=
  if isCostly s then m
  else xfadeByte (xfadeByte m s3 (top8 s.voice.dst.sub)) s.eng.noise (top8 s.voice.dst.noise)

/-- The voice sample of a live voice (R340), from the phases before the advance. -/
def voiceSample (s : State) : Byte :=
  mixSubNoise s
    (combine (combineOption s) (s.voice.osc1.sample s.cfg) (s.voice.osc2.sample s.cfg) (top8 s.voice.dst.mixBalance))
    (s.voice.sub.sample s.cfg)

/-- Hard sync (R344, R290): with option SYNC, a wrap of oscillator 1 resets oscillator 2's phase, after the combination. -/
def Voice.hardSync (v : Voice) (opt : Combine) : Voice :=
  if opt = .sync ∧ v.wrapped = true then { v with osc2 := v.osc2.zeroPhase } else v

/-- `Audio()` (R340): the state after it, and the sample it returns. A dead voice gives 128 and renders nothing. -/
def voiceAudio (s : State) : State × Byte :=
  if s.voice.dead then (s, 128)
  else (s.setVoice (s.voice.advanceOscs.hardSync (combineOption s)), voiceSample s)

end Sys2Proof.Machine
end

