-- ==== Sys2Proof/Machine/Controller.lean ====
section
/-! DEFINITION. The voice controller: held notes, arpeggiator and step sequencer (44_voice_controller.md, R370 to R398). -/

namespace Sys2Proof.Machine

/-! ## The held-note set (R372) -/

/-- Whether a note is held. -/
def isHeld (held : List HeldNote) (n : BitVec 7) : Bool := held.any (fun h => h.note = n)

/-- `held_remove(n)`. -/
def heldRemove (held : List HeldNote) (n : BitVec 7) : List HeldNote := held.filter (fun h => h.note ≠ n)

/-- `held_add(n, v)`. -/
def heldAdd (held : List HeldNote) (n v : BitVec 7) : List HeldNote :=
  let rest := heldRemove held n
  if rest.length < heldCap then rest ++ [⟨n, v⟩] else rest

/-! ## Note on and note off -/

/-- A note number as the voice takes it. -/
def noteByte (n : BitVec 7) : Byte := BitVec.setWidth 8 n

/-- `ctl_note_on(n, v)` (R375). -/
def ctlNoteOn (s : State) (n v : BitVec 7) : State :=
  let held := heldAdd s.ctl.held n v
  let s1 := s.setCtl { s.ctl with held := held }
  if isHeld held n && decide (arpMode s = .off) then
    voiceTrigger s1 (noteByte n) v (s.cfg.legato && !s.ctl.held.isEmpty)
  else s1

/-- `ctl_note_off(n)` (R376). -/
def ctlNoteOff (s : State) (n : BitVec 7) : State :=
  if isHeld s.ctl.held n then
    let rest := heldRemove s.ctl.held n
    let s1 := s.setCtl { s.ctl with held := rest }
    match rest.getLast? with
    | none => voiceRelease s1
    | some h =>
      if decide (arpMode s = .off) && decide (s.ctl.held.getLast?.map HeldNote.note = some n) then
        voiceTrigger s1 (noteByte h.note) h.velocity s.cfg.legato
      else s1
  else s

/-! ## Arpeggiator (R385) -/

/-- Insert a held note into a list sorted by note number. -/
def insertByNote (h : HeldNote) : List HeldNote → List HeldNote
  | [] => [h]
  | g :: rest => if h.note.toNat ≤ g.note.toNat then h :: g :: rest else g :: insertByNote h rest

/-- The held notes sorted by note number: `q_0 < q_1 < …`. -/
def sortedHeld : List HeldNote → List HeldNote
  | [] => []
  | h :: rest => insertByNote h (sortedHeld rest)

/-- Element j of the ascending sequence: note `q_{j mod k} + 12·(j div k)` with the velocity of `q_{j mod k}`. -/
def arpElement (held : List HeldNote) (j : Nat) : Byte × BitVec 7 :=
  let q := sortedHeld held
  let h := q.getD (j % held.length) ⟨0, 0⟩
  (BitVec.ofNat 8 (h.note.toNat + 12 * (j / held.length)), h.velocity)

/-- The length L of the ascending sequence. -/
def arpLength (s : State) : Nat := s.ctl.held.length * octaveSpan s

/-- The element index j that `arp_next()` plays, with the traversal position and the random generator it leaves (R385). -/
def arpIndex (mode : ArpMode) (len pos : Nat) (rng : Half) : Nat × Nat × Half :=
  match mode with
  | .down => (len - 1 - pos % len, (pos % len + 1) % len, rng)
  | .upDown =>
    let p := max 1 (2 * len - 2)
    let i := pos % p
    (if i < len then i else 2 * len - 2 - i, (i + 1) % p, rng)
  | .random => ((rngOut (rngStep rng)).toNat % len, pos, rngStep rng)
  | .up => (pos % len, (pos % len + 1) % len, rng)
  | .off => (pos % len, (pos % len + 1) % len, rng)

/-- `arp_step()` (R381), with `arp_next()` (R385): the next note of the traversal triggers the voice, not legato. -/
def arpStep (s : State) : State :=
  let n := arpIndex (arpMode s) (arpLength s) s.ctl.arpPos.toNat s.eng.rng
  let e := arpElement s.ctl.held n.1
  let s1 : State :=
    { s with
      ctl := { s.ctl with arpPos := BitVec.ofNat 16 n.2.1 }
      eng := { s.eng with rng := n.2.2 } }
  voiceTrigger s1 e.1 e.2 false

/-! ## Steps -/

/-- The step a boundary plays, `step_index mod len` (R380). -/
def currentStep (s : State) : Nat := s.ctl.stepIndex.toNat % patternLen s

/-- Whether the rhythm pattern sounds a step: bit s of `RHYTHM(P.SEQ_PATTERN mod NUM_RHYTHM_PATTERNS)` (R380). -/
def stepOn (s : State) (k : Nat) : Bool := (rhythm s.cfg (seqPattern s % numRhythms s.cfg)).getLsbD k

/-- `step_duration(s)` (R379). -/
def stepDuration (s : State) (k : Nat) : Nat :=
  let d := ticksPerStep s.cfg (seqTempo s)
  let off := d * seqSwing s / 256
  if k % 2 = 0 then d + off else d - off

/-- The sequencer sources of a step (R380). -/
def setSeqSources (s : State) (k : Nat) : State :=
  s.setCtl { s.ctl with
    seqValue := BitVec.setWidth 8 (stepValue s k) <<< 4
    seqGate := if stepOn s k then 255 else 0 }

/-- `do_step()` (R380); the step it plays is `currentStep`. -/
def doStep (s : State) : State :=
  let k := currentStep s
  let s1 := setSeqSources s k
  let s2 := if decide (arpMode s ≠ .off) && stepOn s k && !s.ctl.held.isEmpty then arpStep s1 else s1
  s2.setCtl { s2.ctl with stepIndex := BitVec.ofNat 4 ((k + 1) % patternLen s) }

/-! ## The control tick (R378) -/

/-- Entering Running (R371). -/
def Controller.enter (c : Controller) : Controller :=
  { c with running := true, stepTimer := 0, stepIndex := 0, arpPos := 0, ticksSinceStep := 0 }

/-- Leaving Running (R371). -/
def Controller.leave (c : Controller) : Controller := { c with running := false, seqGate := 0 }

/-- The Running state follows `want` (R370, R378). -/
def Controller.follow (c : Controller) (want : Bool) : Controller :=
  if want && !c.running then c.enter else if !want && c.running then c.leave else c

/-- `ticks_since_step <- min(65535, ticks_since_step + 1)` (R378). -/
def Controller.countTick (c : Controller) : Controller :=
  { c with ticksSinceStep := BitVec.ofNat 16 (min 65535 (c.ticksSinceStep.toNat + 1)) }

/-- Whether a control tick is a step boundary, once the Running state is settled (R378). -/
def boundaryDue (ext : Bool) (c : Controller) : Bool :=
  c.running && (if ext then decide (0 < c.extPending.toNat) else decide (c.stepTimer = 0))

/-- A boundary takes one pending external step, and sets the external tempo estimate (R378, R393). -/
def Controller.takeBoundary (c : Controller) (ext : Bool) : Controller :=
  if ext then { c with extPending := c.extPending - 1, extTps := BitVec.ofNat 16 (max 1 c.ticksSinceStep.toNat), ticksSinceStep := 0 }
  else { c with ticksSinceStep := 0 }

/-- A boundary's registers, then the step it plays (R378, R380). -/
def playStep (s : State) : State := doStep (s.setCtl (s.ctl.takeBoundary (extClock s)))

/-- `step_timer <- d` (R378, R379). -/
def loadTimer (d : Nat) (s : State) : State := s.setCtl { s.ctl with stepTimer := storeU16 .stepTimer d }

/-- The part of a control tick that a boundary runs (R378): the step is played, and under the internal clock its duration
loaded. -/
def boundary (s : State) : State :=
  if extClock s then playStep s else loadTimer (stepDuration s (currentStep s)) (playStep s)

/-- `step_timer <- step_timer - 1` while Running under the internal clock (R378). -/
def countDown (s : State) : State :=
  if s.ctl.running && !extClock s then s.setCtl { s.ctl with stepTimer := s.ctl.stepTimer - 1 } else s

/-- The controller once a control tick has settled its Running state and counted the tick (R378). -/
def settled (s : State) : State := s.setCtl (s.ctl.follow (wantRunning s)).countTick

/-- `ctl_control()` (R378): the state after it, and the step-boundary flag b. -/
def ctlControl (s : State) : State × Bool :=
  let s1 := settled s
  let b := boundaryDue (extClock s) s1.ctl
  (countDown (if b then boundary s1 else s1), b)

/-! ## Clocks -/

/-- `ctl_clock()` (R394). -/
def ctlClock (s : State) : State :=
  if extClock s && s.ctl.extRun then
    if s.cfg.clocksPerStep ≤ s.ctl.pulseCtr + 1 then
      s.setCtl { s.ctl with pulseCtr := 0, extPending := BitVec.ofNat 8 (min 255 (s.ctl.extPending.toNat + 1)) }
    else s.setCtl { s.ctl with pulseCtr := s.ctl.pulseCtr + 1 }
  else s

/-- `ctl_start()` (R395). -/
def ctlStart (s : State) : State :=
  s.setCtl { s.ctl with extRun := true, stepIndex := 0, arpPos := 0, pulseCtr := 0, extPending := 1 }

/-- `ctl_stop()` (R396). -/
def ctlStop (s : State) : State := s.setCtl { s.ctl with extRun := false, extPending := 0 }

end Sys2Proof.Machine
end

