-- ==== Sys2Proof/Machine/Parameter.lean ====
section
/-! DEFINITION. Parameter access and the dependent recomputation (45_engine_commands.md R440 to R443). -/

namespace Sys2Proof.Machine

/-- `setup_algorithm(0, P.OSC1_ALG)` (R442). -/
def setupOsc1 (s : State) : State := s.setVoice { s.voice with osc1 := s.voice.osc1.setup (readPatch s 0) }

/-- `setup_algorithm(1, P.OSC2_ALG)` (R442). -/
def setupOsc2 (s : State) : State := s.setVoice { s.voice with osc2 := s.voice.osc2.setup (readPatch s 4) }

/-- The dependent recomputation after a write of patch byte idx (R442). -/
def recompute (s : State) (idx : Nat) : State :=
  if idx = 0 then setupOsc1 s
  else if idx = 4 then setupOsc2 s
  else if 15 ≤ idx ∧ idx ≤ 22 then recomputeEnvs s
  else if 23 ≤ idx ∧ idx ≤ 24 then updateLfo s .lfo1
  else if 25 ≤ idx ∧ idx ≤ 26 then updateLfo s .lfo2
  else s

/-- `recompute_all()` (R443). -/
def recomputeAll (s : State) : State :=
  updateLfo (updateLfo (recomputeEnvs (setupOsc2 (setupOsc1 s))) .lfo1) .lfo2

/-- `set_parameter(idx, val)` (R440): an index beyond the patch is rejected before the write (R106). -/
def setParam (s : State) (idx : Nat) (val : Byte) : State :=
  if idx < patchSize s.cfg then recompute (writePatch s idx val) idx else s

/-- What GET_PARAMETER reads: the byte, or the sentinel 0xFF beyond the patch (R441). -/
def getParam (s : State) (idx : Nat) : Byte := if idx < patchSize s.cfg then readPatch s idx else 0xFF

/-- SET_PARAMETER (R440). -/
def execSetParameter (idx : Half) (val : Byte) (s : State) : Host.Outcome State Fault Refusal :=
  .next (setParam s idx.toNat val)

/-- GET_PARAMETER (R441). -/
def execGetParameter (idx : Half) (s : State) : Host.Outcome State Fault Refusal :=
  .next (s.setEng { s.eng with resp := getParam s idx.toNat })

end Sys2Proof.Machine
end

