-- ==== Sys2Proof/Machine/Channel.lean ====
section
/-! DEFINITION. NOP, the channel commands, the channel-mode commands and SET_CV_INPUT (45_engine_commands.md R420 to R439). -/

namespace Sys2Proof.Machine

/-- A command of channel `ch`: on a channel that is not accepted it changes no state (R421). -/
def onChannel (ch : BitVec 4) (f : State → State) (s : State) : State := if accept s ch then f s else s

/-- NOP (R420). -/
def execNop (s : State) : Host.Outcome State Fault Refusal := .next s

/-- A word with a reserved opcode: it changes no state, it executes as NOP (R144). -/
def execReserved (s : State) : Host.Outcome State Fault Refusal := execNop s

/-- The body of NOTE_ON (R422): velocity 0 is a note-off. -/
def noteOnBody (k v : BitVec 7) (s : State) : State := if v = 0 then ctlNoteOff s k else ctlNoteOn s k v

/-- NOTE_ON (R422). -/
def execNoteOn (ch : BitVec 4) (k v : BitVec 7) (s : State) : Host.Outcome State Fault Refusal :=
  .next (onChannel ch (noteOnBody k v) s)

/-- NOTE_OFF (R423): the velocity is ignored. -/
def execNoteOff (ch : BitVec 4) (k _v : BitVec 7) (s : State) : Host.Outcome State Fault Refusal :=
  .next (onChannel ch (fun t => ctlNoteOff t k) s)

/-- A controller's 7-bit value as a patch byte (R427). -/
def ccByte (v : BitVec 7) : Byte := BitVec.setWidth 8 v

/-- The body of CONTROL_CHANGE (R427, R428). -/
def controlChangeBody (k v : BitVec 7) (s : State) : State :=
  match k.toNat with
  | 1 => s.setEng { s.eng with wheel := v }
  | 5 => setParam s 29 (ccByte v)
  | 6 => setParam s s.eng.nrpnIndex.toNat (ccByte v)
  | 71 => setParam s 12 (ccByte v)
  | 72 => setParam s (offEnv s.cfg.ccEnvTarget + 3) (ccByte v)
  | 73 => setParam s (offEnv s.cfg.ccEnvTarget) (ccByte v)
  | 74 => setParam s 11 (ccByte v)
  | 98 => s.setEng { s.eng with nrpnIndex := s.eng.nrpnIndex.extractLsb' 7 7 ++ v }
  | 99 => s.setEng { s.eng with nrpnIndex := v ++ s.eng.nrpnIndex.extractLsb' 0 7 }
  | _ => s

/-- CONTROL_CHANGE (R427). -/
def execControlChange (ch : BitVec 4) (k v : BitVec 7) (s : State) : Host.Outcome State Fault Refusal :=
  .next (onChannel ch (controlChangeBody k v) s)

/-- PITCH_BEND (R430). -/
def execPitchBend (ch : BitVec 4) (v14 : BitVec 14) (s : State) : Host.Outcome State Fault Refusal :=
  .next (onChannel ch (fun t => t.setEng { t.eng with bend := v14 }) s)

/-- The body of ALL_SOUND_OFF (R431). -/
def allSoundOffBody (s : State) : State :=
  let s1 := s.setVoice { s.voice with
    env1 := s.voice.env1.kill
    env2 := s.voice.env2.kill
    gate := false
    dead := true
    retriggered := false
    glideInc := 0 }
  s1.setCtl { s1.ctl with held := [] }

/-- ALL_SOUND_OFF (R431). -/
def execAllSoundOff (ch : BitVec 4) (s : State) : Host.Outcome State Fault Refusal := .next (onChannel ch allSoundOffBody s)

/-- The body of ALL_NOTES_OFF (R432). -/
def allNotesOffBody (s : State) : State := voiceRelease (s.setCtl { s.ctl with held := [] })

/-- ALL_NOTES_OFF (R432). -/
def execAllNotesOff (ch : BitVec 4) (s : State) : Host.Outcome State Fault Refusal := .next (onChannel ch allNotesOffBody s)

/-- The body of RESET_ALL_CONTROLLERS (R433). -/
def resetControllersBody (s : State) : State := s.setEng { s.eng with wheel := 0, bend := 8192, nrpnIndex := 0 }

/-- RESET_ALL_CONTROLLERS (R433). -/
def execResetAllControllers (ch : BitVec 4) (s : State) : Host.Outcome State Fault Refusal :=
  .next (onChannel ch resetControllersBody s)

/-- OMNI_MODE_ON (R434). -/
def execOmniModeOn (ch : BitVec 4) (s : State) : Host.Outcome State Fault Refusal :=
  .next (onChannel ch (fun t => t.setEng { t.eng with omni := true }) s)

/-- OMNI_MODE_OFF (R435). -/
def execOmniModeOff (ch : BitVec 4) (s : State) : Host.Outcome State Fault Refusal :=
  .next (onChannel ch (fun t => t.setEng { t.eng with omni := false }) s)

/-- The engine registers with `cv_in[n]` written; n ≥ 4 writes nothing (R439). -/
def Engine.setCv (e : Engine) (n : Nat) (val : Byte) : Engine :=
  match n with
  | 0 => { e with cvIn0 := val }
  | 1 => { e with cvIn1 := val }
  | 2 => { e with cvIn2 := val }
  | 3 => { e with cvIn3 := val }
  | _ => e

/-- SET_CV_INPUT (R439). -/
def execSetCvInput (n val : Byte) (s : State) : Host.Outcome State Fault Refusal := .next (s.setEng (s.eng.setCv n.toNat val))

end Sys2Proof.Machine
end

