-- ==== Sys2Proof/Machine/Consumer.lean ====
section
/-! DEFINITION. The consumer: the block's one interrupt context (47_buffering.md R530 to R532, 60_exceptions.md R555 to R558),
and the points between atomic host sub-steps at which it may run (R525, R531, R556). Taking a consumer step saves nothing and
restores nothing (R557, R558). -/

namespace Sys2Proof.Machine

/-- The pop of `consumer_tick()`: the oldest sample, or an underrun that is counted and holds the last one (R530). -/
def Output.popSample (o : Output) : Output :=
  match o.ring with
  | x :: rest => { o with ring := rest, audioOut := x }
  | [] => { o with glitchCount := o.glitchCount + 1 }

/-- The rest of `consumer_tick()`: the three output registers go to the pins, and the display tick advances (R530). -/
def Output.drivePins (o : Output) : Output :=
  { o with
    pinCutoff := o.cvCutoff
    pinResonance := o.cvResonance
    pinAmplitude := o.cvAmplitude
    displayTick := o.displayTick + 1 }

/-- What the output peripherals receive from a consumer step (R530, R563). -/
def Output.emission (o : Output) : Emission := ⟨o.audioOut, o.pinCutoff, o.pinResonance, o.pinAmplitude⟩

/-- `consumer_tick()` (R530). -/
def consumerTick (s : State) : State :=
  let o := s.out.popSample.drivePins
  { s with out := o, emitted := o.emission :: s.emitted }

/-- The consumer steps that the schedule puts before the host's next atomic sub-step, and that turn taken off it. -/
def preemptBy : List Agent → State → State
  | [], s => { s with sched := [] }
  | .host :: rest, s => { s with sched := rest }
  | .consumer :: rest, s => preemptBy rest (consumerTick s)

/-- A point between two atomic sub-steps of a host command: any number of consumer steps run here, as the schedule says
(R525, R531). -/
def preempt (s : State) : State := preemptBy s.sched s

end Sys2Proof.Machine
end

