-- ==== Sys2Proof/Machine/RealTime.lean ====
section
/-! DEFINITION. The real-time entry points CONTROL and AUDIO (45_engine_commands.md R450 to R460) and the producer command
RENDER_BLOCK (47_buffering.md R524), with the atomic sub-steps between which the consumer may run (R525, R533). -/

namespace Sys2Proof.Machine

/-- `refresh_sources()` (R451), every global source but RANDOM. -/
def refreshSources (s : State) : State :=
  s.setEng { s.eng with
    gsrc :=
      { s.eng.gsrc with
        lfo1 := s.lfo1.render s.cfg
        lfo2 := s.lfo2.render s.cfg
        wheel := BitVec.ofNat 8 (s.eng.wheel.toNat * 2)
        bend := top8 s.eng.bend
        seqValue := s.ctl.seqValue
        seqGate := s.ctl.seqGate
        cv1 := s.eng.cvIn0
        cv2 := s.eng.cvIn1
        cv3 := s.eng.cvIn2
        cv4 := s.eng.cvIn3 } }

/-- `gsrc[RANDOM] <- rng_next()` (R450). -/
def drawRandom (s : State) : State :=
  let r := rngNext s
  r.1.setEng { r.1.eng with gsrc := { r.1.eng.gsrc with random := r.2 } }

/-- The voice controller's part of a control tick, with the drift correction at a step boundary (R450, R241). -/
def controllerTick (s : State) : State :=
  let r := ctlControl s
  if r.2 then driftStep r.1 else r.1

/-- CONTROL up to and excluding its output-register writes: one atomic sub-step (R450, R525). -/
def controlCore (s : State) : State := voiceControl (refreshSources (drawRandom (controllerTick (advanceLfos s))))

/-- `audio_step()` (R460): the state after it, and the sample it returns. -/
def audioStep (s : State) : State × Byte := voiceAudio (noiseUpdate s)

/-- The atomic sub-steps of CONTROL and RENDER_BLOCK (R525, R533); RENDER_BLOCK's check is the first sub-step of its
meaning. -/
inductive SubStep where
  /-- CONTROL up to and excluding its output-register writes. -/
  | core
  /-- `cv_cutoff <- out_cutoff`. -/
  | cutoff
  /-- `cv_resonance <- out_resonance`. -/
  | resonance
  /-- `cv_amplitude <- out_amplitude`. -/
  | amplitude
  /-- `push(audio_step())`. -/
  | sample
  deriving DecidableEq, Repr

/-- What one atomic sub-step does. -/
def runSubStep (k : SubStep) (s : State) : State :=
  match k with
  | .core => controlCore s
  | .cutoff => s.setOut { s.out with cvCutoff := outCutoff s }
  | .resonance => s.setOut { s.out with cvResonance := outResonance s }
  | .amplitude => s.setOut { s.out with cvAmplitude := outAmplitude s }
  | .sample => ringPush (audioStep s).1 (audioStep s).2

/-- Sub-steps in order, each after the consumer steps that the schedule puts before it (R525). -/
def runSubSteps : List SubStep → State → State
  | [], s => s
  | k :: ks, s => runSubSteps ks (runSubStep k (preempt s))

/-- `write_cv_outputs()` (R533): three separate atomic writes, in this order. -/
def cvWrites : List SubStep := [.cutoff, .resonance, .amplitude]

/-- The sub-steps of a started block (R524, R525): CONTROL, then BLOCK_SIZE samples. -/
def blockSteps (c : Config) : List SubStep := .core :: cvWrites ++ List.replicate c.blockSize .sample

/-- Whether the ring buffer has room for a block (R524). -/
def roomForBlock (s : State) : Bool := !decide (s.cfg.ringSize - ringCount s < s.cfg.blockSize)

/-- CONTROL (R450). -/
def execControl (s : State) : Host.Outcome State Fault Refusal := .next (runSubSteps cvWrites (controlCore s))

/-- AUDIO (R460). -/
def execAudio (s : State) : Host.Outcome State Fault Refusal :=
  .next ((audioStep s).1.setEng { (audioStep s).1.eng with resp := (audioStep s).2 })

/-- RENDER_BLOCK (R524): without room for a whole block it changes no state. -/
def execRenderBlock (s : State) : Host.Outcome State Fault Refusal :=
  .next (if roomForBlock s then runSubSteps (blockSteps s.cfg) s else s)

end Sys2Proof.Machine
end

