-- ==== Sys2Proof/Machine/Transfer.lean ====
section
/-! DEFINITION. The SysEx patch receiver (46_patch_transfer.md, R490 to R504). -/

namespace Sys2Proof.Machine

/-- NB = 2·PATCH_SIZE, the data bytes of a frame (R492). -/
def frameNibbles (c : Config) : Nat := 2 * patchSize c

/-- SYSEX_START on the receiver (R491): `rx_buf` is not cleared. -/
def Receiver.begin (r : Receiver) : Receiver := { r with state := .header, pos := 0, sum := 0, hi := 0, cks := 0 }

/-- The receiver in its error state (R492). -/
def Receiver.fail (r : Receiver) : Receiver := { r with state := .error }

/-- SYSEX_BYTE while the header is matched (R492). -/
def Receiver.headerStep (c : Config) (r : Receiver) (b : Byte) : Receiver :=
  if b ≠ headerByte c r.pos.toNat then r.fail
  else
    let pos := storeU16 .rxPos (r.pos.toNat + 1)
    if pos.toNat = c.sysexHeader.length then { r with state := .data, pos := 0 } else { r with pos := pos }

/-- The byte a pair of nibbles makes, `(hi << 4) | lo` (R492). -/
def nibblePair (hi lo : BitVec 4) : Byte := hi ++ lo

/-- The effect of a nibble at position j of the data and checksum, short of the position's advance; none when there are too
many (R492). -/
def Receiver.nibbleAt (c : Config) (r : Receiver) (j : Nat) (lo : BitVec 4) : Option Receiver :=
  if j < frameNibbles c then
    if j % 2 = 0 then some { r with hi := lo }
    else some { r with
      buf := Memory.write rxDefaultByte r.buf (j / 2) (nibblePair r.hi lo)
      sum := r.sum + nibblePair r.hi lo }
  else if j = frameNibbles c then some { r with hi := lo }
  else if j = frameNibbles c + 1 then some { r with cks := nibblePair r.hi lo }
  else none

/-- SYSEX_BYTE while data is accumulated (R492): a byte above 0x0F, or one too many, is an error. -/
def Receiver.dataStep (c : Config) (r : Receiver) (b : Byte) : Receiver :=
  if 0x0F < b.toNat then r.fail
  else
    match r.nibbleAt c r.pos.toNat (b.extractLsb' 0 4) with
    | some r' => { r' with pos := storeU16 .rxPos (r.pos.toNat + 1) }
    | none => r.fail

/-- SYSEX_BYTE on the receiver (R492). -/
def Receiver.byteStep (c : Config) (r : Receiver) (b : Byte) : Receiver :=
  match r.state with
  | .idle => r
  | .success => r
  | .error => r
  | .header => r.headerStep c b
  | .data => r.dataStep c b

/-- `valid(buf)` (R496): bit 7 clear in the parameter and name regions. -/
def validBuf (c : Config) (buf : Nat → Byte) : Bool :=
  (List.range 31).all (fun i => (buf i).toNat < 0x80) && (List.range 8).all (fun i => (buf (offName c + i)).toNat < 0x80)

/-- `commit()` (R500): the whole patch from the receive buffer, as one atomic step, then `recompute_all()`. -/
def commit (s : State) : State :=
  recomputeAll { s with patch := Memory.ofFn (defaultPatchByte s.cfg) (patchSize s.cfg) (readRx s) }

/-- Whether SYSEX_END finds a complete, correct and valid transfer (R495). -/
def transferOk (s : State) : Bool :=
  decide (s.rx.state = .data) && decide (s.rx.pos.toNat = frameNibbles s.cfg + 2) && decide (s.rx.cks = s.rx.sum)
    && validBuf s.cfg (readRx s)

/-- The body of SYSEX_END (R495). -/
def sysexEndBody (s : State) : State :=
  if s.rx.state = .header ∨ s.rx.state = .data then
    if transferOk s then
      let s1 := commit s
      s1.setRx { s1.rx with state := .success }
    else s.setRx s.rx.fail
  else s

/-- SYSEX_START (R491). -/
def execSysexStart (s : State) : Host.Outcome State Fault Refusal := .next (s.setRx s.rx.begin)

/-- SYSEX_BYTE (R492). -/
def execSysexByte (b : Byte) (s : State) : Host.Outcome State Fault Refusal := .next (s.setRx (s.rx.byteStep s.cfg b))

/-- SYSEX_END (R495). -/
def execSysexEnd (s : State) : Host.Outcome State Fault Refusal := .next (sysexEndBody s)

end Sys2Proof.Machine
end

