-- ==== Sys2Proof/Machine/Transport.lean ====
section
/-! DEFINITION. The external clock commands (45_engine_commands.md R436 to R438). -/

namespace Sys2Proof.Machine

/-- CLOCK (R436). -/
def execClock (s : State) : Host.Outcome State Fault Refusal := .next (ctlClock s)

/-- START (R437). -/
def execStart (s : State) : Host.Outcome State Fault Refusal := .next (ctlStart s)

/-- STOP (R438). -/
def execStop (s : State) : Host.Outcome State Fault Refusal := .next (ctlStop s)

end Sys2Proof.Machine
end

