-- ==== Sys2Proof/Machine/Dispatch.lean ====
section
/-! DEFINITION. The meaning of each command of the opcode map (R143), one arm per constructor. -/

namespace Sys2Proof.Machine

def exec (i : Instr) (s : State) : Host.Outcome State Fault Refusal :=
  match i with
  | .nop => Sys2Proof.Machine.execNop s
  | .noteOn ch k v => Sys2Proof.Machine.execNoteOn ch k v s
  | .noteOff ch k v => Sys2Proof.Machine.execNoteOff ch k v s
  | .controlChange ch k v => Sys2Proof.Machine.execControlChange ch k v s
  | .pitchBend ch v14 => Sys2Proof.Machine.execPitchBend ch v14 s
  | .allSoundOff ch => Sys2Proof.Machine.execAllSoundOff ch s
  | .allNotesOff ch => Sys2Proof.Machine.execAllNotesOff ch s
  | .resetAllControllers ch => Sys2Proof.Machine.execResetAllControllers ch s
  | .omniModeOn ch => Sys2Proof.Machine.execOmniModeOn ch s
  | .omniModeOff ch => Sys2Proof.Machine.execOmniModeOff ch s
  | .sysexStart => Sys2Proof.Machine.execSysexStart s
  | .sysexByte b => Sys2Proof.Machine.execSysexByte b s
  | .sysexEnd => Sys2Proof.Machine.execSysexEnd s
  | .setParameter idx val => Sys2Proof.Machine.execSetParameter idx val s
  | .getParameter idx => Sys2Proof.Machine.execGetParameter idx s
  | .clock => Sys2Proof.Machine.execClock s
  | .start => Sys2Proof.Machine.execStart s
  | .stop => Sys2Proof.Machine.execStop s
  | .control => Sys2Proof.Machine.execControl s
  | .audio => Sys2Proof.Machine.execAudio s
  | .renderBlock => Sys2Proof.Machine.execRenderBlock s
  | .setCvInput n val => Sys2Proof.Machine.execSetCvInput n val s

end Sys2Proof.Machine
end

