-- ==== Sys2Proof/Machine/Port.lean ====
section
/-! DEFINITION. The command port and the turns of the two agents (R5, R6, R31, R111, R531): what `step` calls. -/

namespace Sys2Proof.Machine

/-- A command word on the port: the command it decodes to, or, for a reserved opcode, NOP (R144). -/
def runWord (w : Word) (s : State) : Host.Outcome State Fault Refusal :=
  match decode w with
  | .ok i => exec i s
  | .reject _ => execReserved s

/-- The host's turn: the next command of its sequence (R31, R111); with none presented the block waits (R593). -/
def hostTurn (s : State) : Host.Outcome State Fault Refusal :=
  match fetchWord s with
  | some (w, s') => runWord w s'
  | none => .next s

/-- One turn: the agent that the schedule names next takes its step (R531). -/
def turn (s : State) : Host.Outcome State Fault Refusal :=
  match s.sched with
  | .consumer :: rest => .next (consumerTick { s with sched := rest })
  | .host :: rest => hostTurn { s with sched := rest }
  | [] => hostTurn s

end Sys2Proof.Machine
end

