-- ==== Sys2Proof/Machine/Step.lean ====
section
/-! DEFINITION. The step function. -/

namespace Sys2Proof.Machine

/-- One step of the machine: a host command with the consumer steps that fall inside it, a consumer step by itself, or the
host's turn with nothing presented. An ill-formed configuration is refused before anything runs (R8). -/
def step (s : State) : Host.Outcome State Fault Refusal :=
  if s.cfg.wf then turn s else .refused .illFormedConfiguration

/-- The state with a command word where `step` takes its next command: first on the port, and the host's turn next. The table
gives every row 32 bits, and `w` is that one word as R140 numbers it. -/
def State.withFetchWord (s : State) (_nbits w : Nat) : State := presentNext s (BitVec.ofNat 32 w)

end Sys2Proof.Machine
end

