-- ==== Sys2Proof/Machine/Assembler.lean ====
section
/-! DEFINITION. The assembly syntax (R147) and the pseudo-commands (R148). The host's notation for command sequences: nothing
of the block depends on it. -/

namespace Sys2Proof.Machine

/-! ## Pseudo-commands (R148) -/

/-- `NRPN ch, idx, val`. -/
def nrpnCommands (ch : BitVec 4) (idx : BitVec 14) (val : BitVec 7) : List Instr :=
  [.controlChange ch 99 (idx.extractLsb' 7 7), .controlChange ch 98 (idx.extractLsb' 0 7), .controlChange ch 6 val]

/-- `TICK n`. -/
def tickCommands (n : Nat) : List Instr := .control :: List.replicate n .audio

/-- The two nibble commands of a byte, high nibble first. -/
def nibbleCommands (x : Byte) : List Instr :=
  [.sysexByte (BitVec.setWidth 8 (x.extractLsb' 4 4)), .sysexByte (BitVec.setWidth 8 (x.extractLsb' 0 4))]

/-- The sum of bytes modulo 256. -/
def byteSum (p : List Byte) : Byte := p.foldl (· + ·) 0

/-- `LOAD_PATCH p`, p the PATCH_SIZE bytes of a patch. -/
def loadPatchCommands (c : Config) (p : List Byte) : List Instr :=
  .sysexStart :: c.sysexHeader.map .sysexByte ++ p.flatMap nibbleCommands ++ nibbleCommands (byteSum p) ++ [.sysexEnd]

/-! ## Text (R147) -/

/-- Operands separated by commas. -/
def joinOperands : List Nat → String
  | [] => ""
  | [x] => toString x
  | x :: xs => toString x ++ ", " ++ joinOperands xs

/-- A command as a line of assembly: the mnemonic, then the operands in field order. -/
def asmLine (i : Instr) : String :=
  match i.operands with
  | [] => i.mnemonic
  | xs => i.mnemonic ++ " " ++ joinOperands xs

/-- The value of one digit, decimal or hexadecimal. -/
def digitValue (ch : Char) : Option Nat :=
  let n := ch.toNat
  if 48 ≤ n ∧ n ≤ 57 then some (n - 48)
  else if 65 ≤ n ∧ n ≤ 70 then some (n - 55)
  else if 97 ≤ n ∧ n ≤ 102 then some (n - 87)
  else none

/-- Digits of a base, read onto an accumulator. -/
def readDigits (base : Nat) : List Char → Nat → Option Nat
  | [], acc => some acc
  | ch :: rest, acc =>
    match digitValue ch with
    | some d => if d < base then readDigits base rest (acc * base + d) else none
    | none => none

/-- An operand, in decimal or `0x` hexadecimal. -/
def readNumber : List Char → Option Nat
  | [] => none
  | ['0', 'x'] => none
  | '0' :: 'x' :: rest => readDigits 16 rest 0
  | cs => readDigits 10 cs 0

/-- Whether a character is a blank: a space or a tab. -/
def isBlank (ch : Char) : Bool := decide (ch = ' ' ∨ ch = '\t')

/-- The characters without the blanks before and after them. R147 says nothing of blanks: that those around an operand are
skipped, and that an operand with a blank inside is no number, is the model's choice (DESIGN CHOICE, log entry 15). -/
def trimBlanks (cs : List Char) : List Char := ((cs.dropWhile isBlank).reverse.dropWhile isBlank).reverse

/-- The pieces of a list of characters between commas. -/
def splitCommas : List Char → List (List Char)
  | [] => [[]]
  | ch :: rest =>
    match splitCommas rest with
    | [] => [[ch]]
    | p :: ps => if ch = ',' then [] :: p :: ps else (ch :: p) :: ps

/-- A list of options as an option of a list. -/
def allSome : List (Option Nat) → Option (List Nat)
  | [] => some []
  | none :: _ => none
  | some x :: rest => (allSome rest).map (x :: ·)

/-- An operand in its field, if it fits (R142). -/
def inField (w x : Nat) : Option (BitVec w) := if x < 2 ^ w then some (BitVec.ofNat w x) else none

/-- The command of a mnemonic (or one of R147's aliases CC, SET and GET) and its operands. -/
def asmCommand (m : String) (ops : List Nat) : Option (List Instr) :=
  match m, ops with
  | "NOP", [] => some [.nop]
  | "NOTE_ON", [a, b, c] => do some [.noteOn (← inField 4 a) (← inField 7 b) (← inField 7 c)]
  | "NOTE_OFF", [a, b, c] => do some [.noteOff (← inField 4 a) (← inField 7 b) (← inField 7 c)]
  | "CONTROL_CHANGE", [a, b, c] => do some [.controlChange (← inField 4 a) (← inField 7 b) (← inField 7 c)]
  | "CC", [a, b, c] => do some [.controlChange (← inField 4 a) (← inField 7 b) (← inField 7 c)]
  | "PITCH_BEND", [a, b] => do some [.pitchBend (← inField 4 a) (← inField 14 b)]
  | "ALL_SOUND_OFF", [a] => do some [.allSoundOff (← inField 4 a)]
  | "ALL_NOTES_OFF", [a] => do some [.allNotesOff (← inField 4 a)]
  | "RESET_ALL_CONTROLLERS", [a] => do some [.resetAllControllers (← inField 4 a)]
  | "OMNI_MODE_ON", [a] => do some [.omniModeOn (← inField 4 a)]
  | "OMNI_MODE_OFF", [a] => do some [.omniModeOff (← inField 4 a)]
  | "SYSEX_START", [] => some [.sysexStart]
  | "SYSEX_BYTE", [a] => do some [.sysexByte (← inField 8 a)]
  | "SYSEX_END", [] => some [.sysexEnd]
  | "SET_PARAMETER", [a, b] => do some [.setParameter (← inField 16 a) (← inField 8 b)]
  | "SET", [a, b] => do some [.setParameter (← inField 16 a) (← inField 8 b)]
  | "GET_PARAMETER", [a] => do some [.getParameter (← inField 16 a)]
  | "GET", [a] => do some [.getParameter (← inField 16 a)]
  | "CLOCK", [] => some [.clock]
  | "START", [] => some [.start]
  | "STOP", [] => some [.stop]
  | "CONTROL", [] => some [.control]
  | "AUDIO", [] => some [.audio]
  | "RENDER_BLOCK", [] => some [.renderBlock]
  | "SET_CV_INPUT", [a, b] => do some [.setCvInput (← inField 8 a) (← inField 8 b)]
  | "NRPN", [a, b, c] => do some (nrpnCommands (← inField 4 a) (← inField 14 b) (← inField 7 c))
  | "TICK", [a] => some (tickCommands a)
  | _, _ => none

/-- The commands of one line of assembly: none where it is no line of R147's syntax, the empty list for a line with nothing
but blanks and a comment, which `;` starts. Where blanks may stand is log entry 15. -/
def parseLine (line : List Char) : Option (List Instr) :=
  let text := (line.takeWhile (· ≠ ';')).dropWhile isBlank
  let word := text.takeWhile (fun ch => !isBlank ch)
  let rest := trimBlanks (text.drop word.length)
  if word = [] then some []
  else if rest = [] then asmCommand (String.ofList word) []
  else (allSome ((splitCommas rest).map (fun cs => readNumber (trimBlanks cs)))).bind (asmCommand (String.ofList word))

/-- The word of a line of assembly with one command, assembled (R147). -/
def assemble (line : List Char) : Option (List Word) := (parseLine line).map (List.map encode)

end Sys2Proof.Machine
end

