-- ==== Sys2Proof/Safety.lean ====
section
/-! DEFINITION. The terms the claims use: the invariant of a run, the cached copies of the patch (R119), and the part of the
state that belongs to the host (R112). -/

namespace Sys2Proof.Machine

/-- The patch and the receive buffer are in canonical form within PATCH_SIZE (R102, R48). -/
def State.storesOk (s : State) : Prop :=
  Memory.wf (defaultPatchByte s.cfg) (patchSize s.cfg) s.patch = true ∧
    Memory.wf rxDefaultByte (patchSize s.cfg) s.rx.buf = true

/-- The ring buffer holds at most RING_SIZE samples (R49, R521). -/
def State.ringOk (s : State) : Prop := s.out.ring.length ≤ s.cfg.ringSize

/-- The held-note set has at most HELD_CAP entries, no two for the same note (R372). -/
def State.heldOk (s : State) : Prop := s.ctl.held.length ≤ heldCap ∧ (s.ctl.held.map HeldNote.note).Nodup

/-- The bounded counters are in their ranges (R42, R47), and the generator has not died (R300: "`rng` is never 0"). -/
def State.countersOk (s : State) : Prop :=
  s.eng.noiseCtr < s.cfg.noiseDecim ∧ s.ctl.pulseCtr < s.cfg.clocksPerStep ∧ s.eng.rng ≠ 0

/-- One envelope: increments 0..16384, and DEAD holds at 0 (R45, R201). -/
def Envelope.ok (e : Envelope) : Prop :=
  e.incA ≤ 16384 ∧ e.incD ≤ 16384 ∧ e.incR ≤ 16384 ∧ (e.stage = .dead → e.value = 0)

/-- The voice: envelopes in range, a dead voice has both envelopes Dead, the note is 0..163, the sub oscillator is a square
(R44 to R46, R292). -/
def State.voiceOk (s : State) : Prop :=
  s.voice.env1.ok ∧ s.voice.env2.ok ∧
    (s.voice.dead = true → s.voice.env1.stage = .dead ∧ s.voice.env2.stage = .dead) ∧
    s.voice.note.toNat ≤ 163 ∧ s.voice.sub.alg = 2

/-- The invariant of every run. -/
structure State.Inv (s : State) : Prop where
  stores   : s.storesOk
  ring     : s.ringOk
  held     : s.heldOk
  counters : s.countersOk
  voice    : s.voiceOk

/-- An envelope's cached copies are those of its patch bytes (R119, R212). -/
def envCacheOk (s : State) (e : EnvId) : Prop :=
  (s.env e).incA = envInc s.cfg (low7 (readPatch s (offEnv e))) ∧
    (s.env e).incD = envInc s.cfg (low7 (readPatch s (offEnv e + 1))) ∧
    (s.env e).sus.toNat = low7 (readPatch s (offEnv e + 2)) * 128 ∧
    (s.env e).incR = envInc s.cfg (low7 (readPatch s (offEnv e + 3)))

/-- An LFO's cached copies are those of its patch bytes; a step-synced LFO's increment is refreshed only at a drift reset
(R119, R236, R603). -/
def lfoCacheOk (s : State) (i : LfoId) : Prop :=
  (s.lfo i).wave = readPatch s (offLfoWave i) ∧
    (16 ≤ lfoRateOf s i → (s.lfo i).inc = lfoRate s.cfg (lfoRateOf s i))

/-- R119: the copies computed from patch bytes are coherent. -/
structure State.CachesCoherent (s : State) : Prop where
  osc1 : s.voice.osc1.alg = readPatch s 0
  osc2 : s.voice.osc2.alg = readPatch s 4
  env1 : envCacheOk s .env1
  env2 : envCacheOk s .env2
  lfo1 : lfoCacheOk s .lfo1
  lfo2 : lfoCacheOk s .lfo2

/-- The state without what the consumer writes (R112: `audio_out`, the pins, `glitch_count`, `display_tick`, the ring buffer's
contents), the schedule and the record of the outputs: what only host commands write. -/
def State.hostView (s : State) : State :=
  { s with
    out := { Output.reset with
      cvCutoff := s.out.cvCutoff
      cvResonance := s.out.cvResonance
      cvAmplitude := s.out.cvAmplitude }
    sched := []
    emitted := [] }

/-- The registers that only the consumer writes (R112), with the record of what it sent. -/
def State.consumerView (s : State) : Byte × Byte × Byte × Byte × Half × Byte × List Emission :=
  (s.out.audioOut, s.out.pinCutoff, s.out.pinResonance, s.out.pinAmplitude, s.out.glitchCount, s.out.displayTick, s.emitted)

/-- The patch as the parameter index space shows it: what every address reads as. -/
def State.samePatch (s t : State) : Prop := ∀ a : Nat, readPatch t a = readPatch s a

/-- Whether the next atomic step belongs to the host (R531). -/
def State.hostIsNext (s : State) : Prop := s.sched = [] ∨ ∃ rest, s.sched = .host :: rest

/-- Commands executed one after another, with the state each leaves (R111). -/
def execAll : List Instr → State → Host.Outcome State Fault Refusal
  | [], s => .next s
  | i :: is, s =>
    match exec i s with
    | .next s' => execAll is s'
    | .fault f => .fault f
    | .refused r => .refused r

/-- `n` consumer steps in a row. -/
def consumerTicks : Nat → State → State
  | 0, s => s
  | n + 1, s => consumerTicks n (consumerTick s)

/-- `n` renders of an envelope in a row, no trigger between them (R215). -/
def Envelope.renders : Nat → Envelope → Envelope
  | 0, e => e
  | n + 1, e => Envelope.renders n e.render

/-- The channel operand of a channel command or a channel-mode command (R421). -/
def channelOf : Instr → Option (BitVec 4)
  | .noteOn ch _ _ => some ch
  | .noteOff ch _ _ => some ch
  | .controlChange ch _ _ => some ch
  | .pitchBend ch _ => some ch
  | .allSoundOff ch => some ch
  | .allNotesOff ch => some ch
  | .resetAllControllers ch => some ch
  | .omniModeOn ch => some ch
  | .omniModeOff ch => some ch
  | .nop => none
  | .sysexStart => none
  | .sysexByte _ => none
  | .sysexEnd => none
  | .setParameter _ _ => none
  | .getParameter _ => none
  | .clock => none
  | .start => none
  | .stop => none
  | .control => none
  | .audio => none
  | .renderBlock => none
  | .setCvInput _ _ => none

/-- Whether an integer is the value of an s16 register. -/
def fitsS16 (x : Int) : Prop := -32768 ≤ x ∧ x < 32768

/-- What the host reads from `resp` after each of `n` AUDIO commands (R156, R460). -/
def audioResponses : Nat → State → List Byte
  | 0, _ => []
  | n + 1, s =>
    match exec .audio s with
    | .next t => t.eng.resp :: audioResponses n t
    | .fault _ => []
    | .refused _ => []

/-- The state after `n` audio ticks (R460), each of them `audio_step()` with its sample dropped. -/
def audioTicks : Nat → State → State
  | 0, s => s
  | n + 1, s => audioTicks n (audioStep s).1

/-- Whether a control tick from this state crosses a step boundary (R370, R371, R378), read from the state before it: under the
external clock a running transport with a step pending, under the internal clock held notes and a timer at 0, which entering
Running makes it. -/
def stepBoundary (s : State) : Bool :=
  if (readPatch s (offSeq s.cfg)).toNat = 0 then s.ctl.extRun && decide (s.ctl.extPending ≠ 0)
  else decide (s.ctl.held ≠ []) && (!s.ctl.running || decide (s.ctl.stepTimer = 0))

/-- The step that such a boundary plays (R371, R380): step 0 when the tick enters Running. -/
def boundaryStep (s : State) : Nat :=
  if s.ctl.running then s.ctl.stepIndex.toNat % max 1 (min 16 (readPatch s (offSeq s.cfg + 5)).toNat) else 0

/-- Whether a control tick from this state plays an arpeggio note (R380): it crosses a step boundary in an arpeggiator mode,
with notes held, and the rhythm sounds the step. -/
def arpNoteDue (s : State) : Bool :=
  stepBoundary s && decide (arpMode s ≠ .off) && decide (s.ctl.held ≠ []) &&
    (rhythm s.cfg ((readPatch s (offSeq s.cfg + 3)).toNat % numRhythms s.cfg)).getLsbD (boundaryStep s)

/-- Slot i's term of an additive destination (R320, R321): 0 unless the slot has a nonzero amount and names that
destination. -/
def slotTerm (s : State) (d : Dest) (i : Nat) : Int :=
  if slotAmount s i ≠ 0 ∧ slotTarget s i = .additive d then
    ((sourceValue s (slotSource s i)).toNat - bias (slotSource s i)) *
      (if i = s.cfg.numModSlots - 1 ∧ s.cfg.wheelScaleAll = true then slotAmount s i * s.eng.gsrc.wheel.toNat / 256
       else slotAmount s i)
  else 0

/-- The initial value of an additive destination (R318). -/
def initialDest (s : State) : Dest → Int
  | .cutoff => low7 (readPatch s 11) * 128
  | .resonance => low7 (readPatch s 12) * 128
  | .pwm1 => low7 (readPatch s 1) * 128
  | .pwm2 => low7 (readPatch s 5) * 128
  | .osc1Pitch => 8192
  | .osc2Pitch => 8192
  | .finePitch => 8192
  | .mixBalance => low7 (readPatch s 8) * 128
  | .noise => low7 (readPatch s 10) * 128
  | .sub => low7 (readPatch s 9) * 128

/-- The two hardcoded modulations, which reach the cutoff only (R326). -/
def hardcodedTerm (s : State) : Dest → Int
  | .cutoff =>
    (s.voice.env1.value.toNat / 64 : Nat) * low7 (readPatch s 13) + ((s.eng.gsrc.lfo2.toNat : Int) - 128) * low7 (readPatch s 14)
  | .resonance => 0
  | .pwm1 => 0
  | .pwm2 => 0
  | .osc1Pitch => 0
  | .osc2Pitch => 0
  | .finePitch => 0
  | .mixBalance => 0
  | .noise => 0
  | .sub => 0

/-- The sum of an additive destination before it is clipped: its initial value, every slot's term and the hardcoded
modulations (R318 to R326). -/
def destSum (s : State) (d : Dest) : Int :=
  initialDest s d + ((List.range s.cfg.numModSlots).map (slotTerm s d)).sum + hardcodedTerm s d

end Sys2Proof.Machine
end

