-- ==== Sys2Proof/Certificates/Slice0/Obligations.lean ====
section
/-! DEFINITION. The statements for the provers. Each formalises rules of the spec, named in its docstring; `R<n>` is a rule of
spec/. They hold of every configuration (R7) unless a hypothesis says otherwise. -/

open Sys2Proof Sys2Proof.Machine

/-! ## Encoding -/

/-- R143, with the example words of 95_test_vectors.md: one word of each opcode, written out, decodes to its command. -/
def Obligations.WordsOfTheSpecDecode : Prop :=
  decode 0x00FFFFFF = .ok .nop ∧
    decode 0x01003C64 = .ok (.noteOn 0 60 100) ∧
    decode 0x02003C00 = .ok (.noteOff 0 60 0) ∧
    decode 0x03004A40 = .ok (.controlChange 0 74 64) ∧
    decode 0x04003FFF = .ok (.pitchBend 0 16383) ∧
    decode 0x05000000 = .ok (.allSoundOff 0) ∧
    decode 0x06000000 = .ok (.allNotesOff 0) ∧
    decode 0x07000000 = .ok (.resetAllControllers 0) ∧
    decode 0x08020000 = .ok (.omniModeOn 2) ∧
    decode 0x09000000 = .ok (.omniModeOff 0) ∧
    decode 0x0A000000 = .ok .sysexStart ∧
    decode 0x0B00007D = .ok (.sysexByte 0x7D) ∧
    decode 0x0C000000 = .ok .sysexEnd ∧
    decode 0x0D000B40 = .ok (.setParameter 11 64) ∧
    decode 0x0E010000 = .ok (.getParameter 256) ∧
    decode 0x0F000000 = .ok .clock ∧
    decode 0x10000000 = .ok .start ∧
    decode 0x11000000 = .ok .stop ∧
    decode 0x12000000 = .ok .control ∧
    decode 0x13000000 = .ok .audio ∧
    decode 0x14000000 = .ok .renderBlock ∧
    decode 0x15020080 = .ok (.setCvInput 2 128)

/-- R147, R143: every command, at every operand value, comes back from its word; R104: also from the word's four bytes, with
whatever follows them. -/
def Obligations.DecodeOfEncodeIsTheCommand : Prop :=
  ∀ (i : Instr) (rest : List Byte),
    decode (encode i) = .ok i ∧ decodeBytes (bytesOfWord (encode i) ++ rest) = (.ok i, rest)

/-- R145, R147: two words that agree on the bits that the opcode's format names stand for the same command, and every word with
an opcode of the map stands for one: no field value is illegal. The assembler's word of a command has every ignored bit 0. -/
def Obligations.IgnoredBitsChangeNothing : Prop :=
  (∀ (w w' : Word) (i : Instr), decode w = .ok i → w &&& i.namedBits = w' &&& i.namedBits → decode w' = .ok i) ∧
    (∀ w : Word, (wordOp w).toNat ≤ 0x15 → ∃ i : Instr, decode w = .ok i ∧ i.opcode = wordOp w) ∧
    ∀ (w : Word) (i : Instr), decode w = .ok i → encode i = w &&& i.namedBits

/-- R144, R420: executing the word of a reserved opcode changes no state, as NOP does. That the decoder rejects such a word by
name, and the command port then executes it as NOP, is the model's choice of the two that R144 allows (log entry 10). -/
def Obligations.ReservedOpcodesExecuteAsNop : Prop :=
  (∀ s : State, exec .nop s = .next s) ∧
    ∀ w : Word, 0x16 ≤ (wordOp w).toNat →
      decode w = .reject (.reserved (wordOp w)) ∧ ∀ s : State, runWord w s = .next s ∧ runWord w s = exec .nop s

/-! ## Steps, agents and stops -/

/-- R31, R111, R531: when the host's turn is next, a step runs the command that the next word of the host's sequence decodes
to, on the state with that word and that turn taken off. A reserved word changes nothing else (R144); with nothing presented
the block waits (R593). When the schedule names the consumer next, a step is one consumer step (R555). The port, the schedule and the
size of a step are the model's choice (log entries 7 and 8). -/
def Obligations.StepRunsTheNextCommand : Prop :=
  ∀ s : State, s.cfg.wf = true →
    (∀ (w : Word) (rest : List Word) (i : Instr), s.hostIsNext → s.port = w :: rest → decode w = .ok i →
      step s = exec i { s with port := rest, sched := s.sched.tail }) ∧
    (∀ (w : Word) (rest : List Word), s.hostIsNext → s.port = w :: rest → 0x16 ≤ (wordOp w).toNat →
      step s = .next { s with port := rest, sched := s.sched.tail }) ∧
    (s.hostIsNext → s.port = [] → step s = .next { s with sched := s.sched.tail }) ∧
    ∀ rest : List Agent, s.sched = .consumer :: rest → step s = .next (consumerTick { s with sched := rest })

/-- R8: a model refuses an ill-formed configuration. That `step` is what refuses, before anything runs, exactly when a
condition on sizes, counts or header bytes fails, is the model's choice (log entry 11), and so is that the widths R8 asks of
the table entries hold by the entries' types (log entry 5). -/
def Obligations.IllFormedConfigurationIsRefused : Prop :=
  ∀ s : State,
    (step s = .refused .illFormedConfiguration ↔
      ¬ (1 ≤ s.cfg.blockSize ∧ s.cfg.blockSize ≤ s.cfg.ringSize ∧ 1 ≤ s.cfg.numModSlots ∧ 1 ≤ s.cfg.clocksPerStep ∧
        1 ≤ s.cfg.noiseDecim ∧ ∀ b ∈ s.cfg.sysexHeader, b.toNat < 0x80)) ∧
    (∀ t, 1 ≤ ticksPerStep s.cfg t) ∧ (∀ p, envInc s.cfg p ≤ 16384) ∧ (∀ o, (pitchTable s.cfg o).toNat < 65536) ∧
    ∀ r, (lfoRate s.cfg r).toNat < 65536

/-- R550: there is no fault, every command of every state gives a next state, and so does every word, reserved ones too; no
command changes the commands still to come or the configuration. -/
def Obligations.NoCommandStopsTheBlock : Prop :=
  (∀ _ : Fault, False) ∧
    (∀ (i : Instr) (s : State), ∃ t, exec i s = .next t ∧ t.port = s.port ∧ t.cfg = s.cfg) ∧
    (∀ (w : Word) (s : State), ∃ t, runWord w s = .next t ∧ t.port = s.port ∧ t.cfg = s.cfg) ∧
    ∀ s : State, s.cfg.wf = true → ∃ t, step s = .next t ∧ t.cfg = s.cfg ∧ (t.port = s.port ∨ t.port = s.port.tail)

/-- R156, R441: GET_PARAMETER writes the byte, or 0xFF beyond the patch, to `resp` and changes nothing else; AUDIO writes its
sample there; every other command leaves `resp` unchanged. -/
def Obligations.OnlyTwoCommandsWriteResp : Prop :=
  (∀ (s : State) (idx : Half),
    exec (.getParameter idx) s = .next { s with
      eng := { s.eng with resp := if idx.toNat < patchSize s.cfg then readPatch s idx.toNat else 0xFF } }) ∧
  (∀ s : State, ∃ t, exec .audio s = .next t ∧ t.eng.resp = (audioStep s).2) ∧
  ∀ (i : Instr) (s t : State), exec i s = .next t → i ≠ .audio → (∀ idx, i ≠ .getParameter idx) → t.eng.resp = s.eng.resp

/-- R32, R101: the patch is written only by SET_PARAMETER, by an accepted CONTROL_CHANGE of a mapped controller, and by the
SYSEX_END of a correct transfer; a consumer step never writes it. -/
def Obligations.OnlyParameterPathsWriteThePatch : Prop :=
  (∀ (i : Instr) (s t : State), exec i s = .next t → t.patch ≠ s.patch →
    (∃ idx val, i = .setParameter idx val) ∨
    (∃ ch k v, i = .controlChange ch k v ∧ accept s ch = true ∧ k ∈ [5, 6, 71, 72, 73, 74]) ∨
    (i = .sysexEnd ∧ transferOk s = true)) ∧
  ∀ s : State, (consumerTick s).patch = s.patch

/-- R112: host commands write no register of the consumer and take nothing from the ring buffer, when no consumer step falls
inside them; and a consumer step writes nothing but the consumer's registers and the pop side of the ring buffer. -/
def Obligations.EachAgentWritesItsOwnRegisters : Prop :=
  (∀ (i : Instr) (s t : State), .consumer ∉ s.sched → exec i s = .next t →
    t.consumerView = s.consumerView ∧ s.out.ring <+: t.out.ring) ∧
  ∀ s : State, (consumerTick s).hostView = s.hostView ∧ (consumerTick s).sched = s.sched ∧
    (consumerTick s).out.ring = s.out.ring.tail

/-- R530, R557: what a consumer step writes, and that it writes nothing else (but the model's record of outputs, log entry
8). -/
def Obligations.ConsumerStepDrainsOneSample : Prop :=
  ∀ s : State,
    let t := consumerTick s
    (∀ x rest, s.out.ring = x :: rest →
      t.out.ring = rest ∧ t.out.audioOut = x ∧ t.out.glitchCount = s.out.glitchCount) ∧
    (s.out.ring = [] →
      t.out.ring = [] ∧ t.out.audioOut = s.out.audioOut ∧
        t.out.glitchCount.toNat = (s.out.glitchCount.toNat + 1) % 65536) ∧
    t.out.pinCutoff = s.out.cvCutoff ∧ t.out.pinResonance = s.out.cvResonance ∧ t.out.pinAmplitude = s.out.cvAmplitude ∧
    t.out.displayTick.toNat = (s.out.displayTick.toNat + 1) % 256 ∧
    t = { s with
      out := { t.out with
        cvCutoff := s.out.cvCutoff
        cvResonance := s.out.cvResonance
        cvAmplitude := s.out.cvAmplitude }
      emitted := t.emitted }

/-- R534, R114: n consumer steps in a row send the samples in the order they were pushed, then repeat the last one, and count
one glitch for each repetition. The samples sent are read from the model's record of outputs (log entry 8). -/
def Obligations.SamplesLeaveInTheOrderTheyEntered : Prop :=
  ∀ (n : Nat) (s : State),
    let t := consumerTicks n s
    (t.emitted.take n).reverse.map Emission.audio =
      s.out.ring.take n ++ List.replicate (n - s.out.ring.length) (s.out.ring.getLast?.getD s.out.audioOut) ∧
    t.emitted.drop n = s.emitted ∧ t.out.ring = s.out.ring.drop n ∧
    t.out.glitchCount.toNat = (s.out.glitchCount.toNat + (n - s.out.ring.length)) % 65536

/-- R112, R113, R525: what a command leaves in the host's part of the state depends on nothing that the consumer writes, on
no schedule of it, and on the ring buffer only through RENDER_BLOCK's check. -/
def Obligations.HostEffectsDoNotDependOnTheConsumer : Prop :=
  ∀ (i : Instr) (s s' t t' : State), s.hostView = s'.hostView → (i = .renderBlock → roomForBlock s = roomForBlock s') →
    exec i s = .next t → exec i s' = .next t' → t.hostView = t'.hostView

/-! ## Invariants and reset -/

/-- R590: for every well-formed configuration the machine after reset meets the invariant, and its caches agree with the reset
patch. -/
def Obligations.ResetMeetsTheInvariant : Prop :=
  ∀ c : Config, c.wf = true → (State.resetOf c).Inv ∧ (State.resetOf c).CachesCoherent

/-- From every state that meets it, a step keeps the invariant: canonical stores, at most RING_SIZE samples (R524), a held-note
set without repeats (R372), counters in range, a generator that is not 0 (R300), envelopes at 0 when Dead (R201), a dead voice
with Dead envelopes (R316), a square sub oscillator (R292). The canonical form of the stores is the model's (log entry 12). -/
def Obligations.EveryStepKeepsTheInvariant : Prop :=
  ∀ s t : State, s.Inv → step s = .next t → t.Inv

/-- R119: from every state with coherent caches, a step leaves them coherent: a patch write refreshes every copy computed from
the byte, on every path. -/
def Obligations.EveryStepKeepsTheCachesCoherent : Prop :=
  ∀ s t : State, s.Inv → s.CachesCoherent → step s = .next t → t.CachesCoherent

/-- R591, R590, R42 to R49: every register after reset, for every configuration (the patch is DefaultPatchAfterReset); that
`recompute_all()` changes none of them; and that an AUDIO before any CONTROL returns 128. -/
def Obligations.RegistersAfterReset : Prop :=
  ∀ c : Config,
    let s := State.resetOf c
    (∀ d : Dest, s.voice.dst.get d = 0) ∧ s.voice.vca = 0 ∧
    s.voice.osc1 = { alg := 1, phase := 0, inc := 0, aux := 0 } ∧
    s.voice.osc2 = { alg := 0, phase := 0, inc := 0, aux := 0 } ∧
    s.voice.sub = { alg := 2, phase := 0, inc := 0, aux := 0 } ∧
    s.lfo1 = { phase := 0, inc := lfoRate c 16, wave := 0, sh := 0 } ∧
    s.lfo2 = { phase := 0, inc := lfoRate c 16, wave := 0, sh := 0 } ∧
    s.voice.pitch = 7680 ∧ s.voice.target = 7680 ∧ s.voice.glideInc = 0 ∧ s.voice.note = 60 ∧ s.voice.velocity = 0 ∧
    s.voice.gate = false ∧ s.voice.dead = true ∧ s.voice.retriggered = false ∧ s.voice.vsrc = ⟨0, 0, 0, 0, 0⟩ ∧
    s.voice.prevHigh = 0 ∧ s.voice.wrapped = false ∧
    (∀ e : EnvId, (s.env e).incA = envInc c 0 ∧ (s.env e).incD = envInc c 0 ∧ (s.env e).incR = envInc c 0 ∧
      (s.env e).sus = 16256 ∧ (s.env e).stage = .dead ∧ (s.env e).value = 0) ∧
    s.eng.gsrc = ⟨0, 0, 0, 0, 128, 0, 0, 0, 0, 0, 0⟩ ∧
    s.eng.omni = false ∧ s.eng.wheel = 0 ∧ s.eng.bend = 8192 ∧ s.eng.nrpnIndex = 0 ∧
    s.eng.cvIn0 = 0 ∧ s.eng.cvIn1 = 0 ∧ s.eng.cvIn2 = 0 ∧ s.eng.cvIn3 = 0 ∧
    s.eng.rng = 0xACE1 ∧ s.eng.noiseCtr = 0 ∧ s.eng.noise = 128 ∧ s.eng.lfoSyncSteps = 0 ∧ s.eng.resp = 0 ∧
    s.ctl.running = false ∧ s.ctl.extRun = false ∧ s.ctl.stepIndex = 0 ∧ s.ctl.stepTimer = 0 ∧ s.ctl.arpPos = 0 ∧
    s.ctl.held = [] ∧ s.ctl.pulseCtr = 0 ∧ s.ctl.extPending = 0 ∧ s.ctl.ticksSinceStep = 0 ∧ s.ctl.extTps = 0 ∧
    s.ctl.seqValue = 0 ∧ s.ctl.seqGate = 0 ∧
    s.rx.state = .idle ∧ s.rx.pos = 0 ∧ s.rx.sum = 0 ∧ s.rx.hi = 0 ∧ s.rx.cks = 0 ∧ (∀ a, readRx s a = 0) ∧
    s.out.ring = [] ∧ s.out.cvCutoff = 0 ∧ s.out.cvResonance = 0 ∧ s.out.cvAmplitude = 0 ∧ s.out.audioOut = 128 ∧
    s.out.pinCutoff = 0 ∧ s.out.pinResonance = 0 ∧ s.out.pinAmplitude = 0 ∧
    s.out.glitchCount = 0 ∧ s.out.displayTick = 0 ∧
    recomputeAll s = s ∧
    ∃ t, exec .audio s = .next t ∧ t.eng.resp = 128

/-- R592: DEFAULT_PATCH, written out for twelve slots; with another number of slots every slot byte is 0 and the fields from
SEQ_TEMPO up keep their values at their moved offsets. -/
def Obligations.DefaultPatchAfterReset : Prop :=
  ∀ c : Config,
    let s := State.resetOf c
    let bytes : List Byte :=
      [0x01, 0x00, 0x00, 0x00, 0x00, 0x00, 0x00, 0x00, 0x00, 0x00, 0x00, 0x7F, 0x00, 0x00, 0x00, 0x00] ++
      [0x00, 0x7F, 0x00, 0x00, 0x00, 0x7F, 0x00, 0x00, 0x10, 0x00, 0x10, 0x00, 0x00, 0x00, 0x00, 0x00] ++
      [0x00, 0x00, 0x00, 0x00, 0x00, 0x00, 0x00, 0x00, 0x00, 0x00, 0x00, 0x00, 0x00, 0x00, 0x00, 0x00] ++
      [0x00, 0x00, 0x00, 0x00, 0x00, 0x00, 0x00, 0x78, 0x00, 0x01, 0x00, 0x00, 0x10, 0x00, 0x00, 0x00] ++
      [0x00, 0x00, 0x00, 0x00, 0x00, 0x49, 0x4E, 0x49, 0x54, 0x20, 0x20, 0x20, 0x20]
    bytes.length = 77 ∧ byteSum bytes = 0xDB ∧
    (c.numModSlots = 12 → patchSize c = 77 ∧ ∀ i < 77, readPatch s i = bytes.getD i 0) ∧
    (∀ i < 31, readPatch s i = bytes.getD i 0) ∧
    (∀ j < 2 * c.numModSlots, readPatch s (31 + j) = 0) ∧
    (∀ k < 22, readPatch s (31 + 2 * c.numModSlots + k) = bytes.getD (55 + k) 0) ∧
    validBuf c (readPatch s) = true

/-! ## Parameter access -/

/-- R440, R442: SET_PARAMETER inside the patch stores the byte, runs the recomputation that the table gives for its index, and
changes nothing else; the same write again changes nothing (R108); beyond the patch it changes nothing (R106). -/
def Obligations.SetParameterStoresAndRecomputes : Prop :=
  ∀ (s : State) (idx : Half) (val : Byte), s.storesOk →
    (patchSize s.cfg ≤ idx.toNat → exec (.setParameter idx val) s = .next s) ∧
    (idx.toNat < patchSize s.cfg → ∃ t, exec (.setParameter idx val) s = .next t ∧
      (∀ a, readPatch t a = if a = idx.toNat then val else readPatch s a) ∧
      t = { s with patch := t.patch, lfo1 := t.lfo1, lfo2 := t.lfo2, voice := t.voice } ∧
      t.voice =
        (if idx.toNat = 0 then { s.voice with osc1 := { s.voice.osc1 with alg := val } }
        else if idx.toNat = 4 then { s.voice with osc2 := { s.voice.osc2 with alg := val } }
        else if 15 ≤ idx.toNat ∧ idx.toNat ≤ 22 then
          { s.voice with
            env1 := { s.voice.env1 with
              incA := envInc s.cfg ((readPatch t 15).toNat % 128)
              incD := envInc s.cfg ((readPatch t 16).toNat % 128)
              sus := BitVec.ofNat 14 ((readPatch t 17).toNat % 128 * 128)
              incR := envInc s.cfg ((readPatch t 18).toNat % 128) }
            env2 := { s.voice.env2 with
              incA := envInc s.cfg ((readPatch t 19).toNat % 128)
              incD := envInc s.cfg ((readPatch t 20).toNat % 128)
              sus := BitVec.ofNat 14 ((readPatch t 21).toNat % 128 * 128)
              incR := envInc s.cfg ((readPatch t 22).toNat % 128) } }
        else s.voice) ∧
      t.lfo1 =
        (if idx.toNat = 23 ∨ idx.toNat = 24 then { s.lfo1 with wave := readPatch t 23, inc := lfoIncrement t .lfo1 }
        else s.lfo1) ∧
      t.lfo2 =
        (if idx.toNat = 25 ∨ idx.toNat = 26 then { s.lfo2 with wave := readPatch t 25, inc := lfoIncrement t .lfo2 }
        else s.lfo2) ∧
      exec (.setParameter idx val) t = .next t)

/-- R443: `recompute_all()` is the recomputation of R442 applied to every index, and it leaves every cached copy as the patch
has it. -/
def Obligations.RecomputeAllIsEveryRow : Prop :=
  ∀ s : State,
    recomputeAll s = (List.range (patchSize s.cfg)).foldl recompute s ∧
    (recomputeAll s).CachesCoherent ∧
    (recomputeAll s).lfo1 = { s.lfo1 with wave := readPatch s 23, inc := lfoIncrement s .lfo1 } ∧
    (recomputeAll s).lfo2 = { s.lfo2 with wave := readPatch s 25, inc := lfoIncrement s .lfo2 }

/-- R236, R237, R392: the increment of an LFO: from the rate table at rates of 16 and up, else from the steps' length in control
ticks. -/
def Obligations.LfoIncrementFollowsTheRate : Prop :=
  ∀ (s : State) (i : LfoId),
    let r := (readPatch s (offLfoRate i)).toNat
    let ticks := if (readPatch s (offSeq s.cfg)).toNat = 0 then max 1 s.ctl.extTps.toNat
      else ticksPerStep s.cfg (readPatch s (offSeq s.cfg)).toNat
    (16 ≤ r → lfoIncrement s i = lfoRate s.cfg r) ∧
    (r < 16 → (lfoIncrement s i).toNat = max 1 (min 65535 (65536 / ((r + 1) * ticks))))

/-! ## Channel commands -/

/-- R421: the channel filter, and that a channel command or channel-mode command on a channel that is not accepted changes no
state. -/
def Obligations.UnacceptedChannelCommandsChangeNothing : Prop :=
  (∀ (s : State) (ch : BitVec 4),
    accept s ch = true ↔ s.eng.omni = true ∨ ch.toNat = (readPatch s 30).toNat % 16) ∧
  ∀ (i : Instr) (ch : BitVec 4) (s : State), channelOf i = some ch → accept s ch = false → exec i s = .next s

/-- R427: an accepted CONTROL_CHANGE by its controller number; the mapped controllers act as SET_PARAMETER of the mapped byte
(R440). -/
def Obligations.ControlChangeMapsControllers : Prop :=
  ∀ (s : State) (ch : BitVec 4) (v : BitVec 7), accept s ch = true →
    let b : Byte := v.setWidth 8
    let e : Half := match s.cfg.ccEnvTarget with
      | .env1 => 15
      | .env2 => 19
    exec (.controlChange ch 1 v) s = .next { s with eng := { s.eng with wheel := v } } ∧
    exec (.controlChange ch 5 v) s = exec (.setParameter 29 b) s ∧
    exec (.controlChange ch 6 v) s = exec (.setParameter (s.eng.nrpnIndex.setWidth 16) b) s ∧
    exec (.controlChange ch 71 v) s = exec (.setParameter 12 b) s ∧
    exec (.controlChange ch 72 v) s = exec (.setParameter (e + 3) b) s ∧
    exec (.controlChange ch 73 v) s = exec (.setParameter e b) s ∧
    exec (.controlChange ch 74 v) s = exec (.setParameter 11 b) s ∧
    (∃ n, exec (.controlChange ch 98 v) s = .next { s with eng := { s.eng with nrpnIndex := n } } ∧
      n.toNat = s.eng.nrpnIndex.toNat / 128 * 128 + v.toNat) ∧
    (∃ n, exec (.controlChange ch 99 v) s = .next { s with eng := { s.eng with nrpnIndex := n } } ∧
      n.toNat = v.toNat * 128 + s.eng.nrpnIndex.toNat % 128) ∧
    ∀ k : BitVec 7, k ∉ ([1, 5, 6, 71, 72, 73, 74, 98, 99] : List (BitVec 7)) →
      exec (.controlChange ch k v) s = .next s

/-- R428: the NRPN sequence writes the addressed byte through `set_parameter`, whatever the index was before; the index stays,
so a further data entry writes the same byte; an index beyond the patch changes no byte. -/
def Obligations.NrpnWritesTheAddressedByte : Prop :=
  ∀ (s : State) (ch : BitVec 4) (idx : BitVec 14) (val val' : BitVec 7), accept s ch = true → s.storesOk →
    ∃ t, execAll (nrpnCommands ch idx val) s = .next t ∧ t.eng = { s.eng with nrpnIndex := idx } ∧
      exec (.setParameter (idx.setWidth 16) (val.setWidth 8)) { s with eng := t.eng } = .next t ∧
      (∀ a, readPatch t a = if a = idx.toNat ∧ idx.toNat < patchSize s.cfg then val.setWidth 8 else readPatch s a) ∧
      (accept t ch = true → ∃ u, exec (.controlChange ch 6 val') t = .next u ∧ u.eng = t.eng ∧
        ∀ a, readPatch u a = if a = idx.toNat ∧ idx.toNat < patchSize s.cfg then val'.setWidth 8 else readPatch t a)

/-- R430, R433, R434, R435, R439: the commands that write only engine registers, each with everything else unchanged; a
SET_CV_INPUT of an input number of 4 or more changes nothing. -/
def Obligations.EngineRegisterCommands : Prop :=
  ∀ s : State,
    (∀ ch : BitVec 4, accept s ch = true →
      (∀ v, exec (.pitchBend ch v) s = .next { s with eng := { s.eng with bend := v } }) ∧
      exec (.resetAllControllers ch) s = .next { s with eng := { s.eng with wheel := 0, bend := 8192, nrpnIndex := 0 } } ∧
      exec (.omniModeOn ch) s = .next { s with eng := { s.eng with omni := true } } ∧
      exec (.omniModeOff ch) s = .next { s with eng := { s.eng with omni := false } }) ∧
    (∀ val, exec (.setCvInput 0 val) s = .next { s with eng := { s.eng with cvIn0 := val } }) ∧
    (∀ val, exec (.setCvInput 1 val) s = .next { s with eng := { s.eng with cvIn1 := val } }) ∧
    (∀ val, exec (.setCvInput 2 val) s = .next { s with eng := { s.eng with cvIn2 := val } }) ∧
    (∀ val, exec (.setCvInput 3 val) s = .next { s with eng := { s.eng with cvIn3 := val } }) ∧
    ∀ n val : Byte, 4 ≤ n.toNat → exec (.setCvInput n val) s = .next s

/-- R431: an accepted ALL_SOUND_OFF kills both envelopes, clears the voice's flags and the held notes and changes nothing else.
After it the next AUDIO returns 128 and changes no voice register; after the next CONTROL `out_amplitude` is 0, the voice is
still dead, and under the internal clock the controller is Idle. -/
def Obligations.AllSoundOffSilencesTheVoice : Prop :=
  ∀ (s : State) (ch : BitVec 4), accept s ch = true →
    let t := { s with
      voice := { s.voice with
        env1 := { s.voice.env1 with stage := .dead, value := 0 }
        env2 := { s.voice.env2 with stage := .dead, value := 0 }
        gate := false
        dead := true
        retriggered := false
        glideInc := 0 }
      ctl := { s.ctl with held := [] } }
    exec (.allSoundOff ch) s = .next t ∧
    (∃ u, exec .audio t = .next u ∧ u.eng.resp = 128 ∧ u.voice = t.voice) ∧
    ∃ u, exec .control t = .next u ∧ u.out.cvAmplitude = 0 ∧ u.voice.dead = true ∧
      (extClock t = false → u.ctl.running = false)

/-- R432, R312: an accepted ALL_NOTES_OFF empties the held notes and releases the voice: the envelopes that are not Dead go to
RELEASE at their values, the gate closes, nothing else changes; a second one changes nothing. -/
def Obligations.AllNotesOffReleasesTheVoice : Prop :=
  ∀ (s : State) (ch : BitVec 4), accept s ch = true →
    ∃ t, exec (.allNotesOff ch) s = .next t ∧
      t = { s with
        voice := { s.voice with env1 := t.voice.env1, env2 := t.voice.env2, gate := false }
        ctl := { s.ctl with held := [] } } ∧
      (∀ e : EnvId, t.env e = { s.env e with stage := if (s.env e).stage = .dead then .dead else .release }) ∧
      exec (.allNotesOff ch) t = .next t

/-! ## Notes -/

/-- R311, R310: `Trigger`, where its results fit their 16-bit registers; what does not fit is the model's free value (log
entry 3). -/
def Obligations.TriggerSetsPitchGlideAndEnvelopes : Prop :=
  ∀ (s : State) (n : Byte) (vel : BitVec 7) (legato : Bool),
    let t := voiceTrigger s n vel legato
    let p : Int := n.toNat * 128 + scaleOffset s.cfg (readPatch s 28).toNat (n.toNat % 12)
    let ticks := portaTicks s.cfg (readPatch s 29).toNat
    let d := p - s.voice.pitch.toInt
    fitsS16 p →
      t.voice.note = n ∧ t.voice.velocity = vel ∧ t.voice.target.toInt = p ∧ t.voice.gate = true ∧ t.voice.dead = false ∧
      (legato = true ∧ s.voice.dead = false →
        t.voice.env1 = s.voice.env1 ∧ t.voice.env2 = s.voice.env2 ∧ t.voice.retriggered = s.voice.retriggered) ∧
      (¬ (legato = true ∧ s.voice.dead = false) →
        t.voice.env1 = { s.voice.env1 with stage := .attack } ∧ t.voice.env2 = { s.voice.env2 with stage := .attack } ∧
          t.voice.retriggered = true) ∧
      (ticks = 0 ∨ s.voice.dead = true → t.voice.pitch = t.voice.target ∧ t.voice.glideInc = 0) ∧
      (ticks ≠ 0 ∧ s.voice.dead = false →
        t.voice.pitch = s.voice.pitch ∧
        (d = 0 → t.voice.glideInc = 0) ∧
        (d ≠ 0 ∧ fitsS16 (d.tdiv ticks) → t.voice.glideInc.toInt =
          if d.tdiv ticks ≠ 0 then d.tdiv ticks else if 0 < d then 1 else -1)) ∧
      t = { s with
        voice := { t.voice with
          vsrc := s.voice.vsrc
          dst := s.voice.dst
          vca := s.voice.vca
          osc1 := s.voice.osc1
          osc2 := s.voice.osc2
          sub := s.voice.sub
          prevHigh := s.voice.prevHigh
          wrapped := s.voice.wrapped } }

/-- R372, R375, R422: an accepted NOTE_ON with a velocity that is not 0 moves the note to the end of the held notes where there
is room, and in non-arpeggiated mode triggers the voice with it, legato when notes were held before; in an arpeggiator mode,
or with the set full, the voice is left alone, and a press of a new note with sixteen held changes nothing. A NOTE_ON of
velocity 0 is a NOTE_OFF, whatever that one's velocity. -/
def Obligations.NoteOnHoldsAndTriggers : Prop :=
  ∀ (s : State) (ch : BitVec 4) (k v : BitVec 7),
    exec (.noteOn ch k 0) s = exec (.noteOff ch k v) s ∧ (accept s ch = true → v ≠ 0 →
    let others := s.ctl.held.filter (fun h => h.note ≠ k)
    ((∀ h ∈ s.ctl.held, h.note ≠ k) → s.ctl.held.length = 16 → exec (.noteOn ch k v) s = .next s) ∧
    (16 ≤ others.length →
      exec (.noteOn ch k v) s = .next { s with ctl := { s.ctl with held := others } }) ∧
    (others.length < 16 → arpMode s ≠ .off →
      exec (.noteOn ch k v) s = .next { s with ctl := { s.ctl with held := others ++ [⟨k, v⟩] } }) ∧
    (others.length < 16 → arpMode s = .off →
      exec (.noteOn ch k v) s = .next
        (voiceTrigger { s with ctl := { s.ctl with held := others ++ [⟨k, v⟩] } } (k.setWidth 8) v
          (s.cfg.legato && !s.ctl.held.isEmpty))))

/-- R376, R423, R312: an accepted NOTE_OFF. A note that is not held changes nothing; the last one held releases the voice; in
non-arpeggiated mode the release of the most recent note goes back to the one held before it, and every other release only
takes the note out. -/
def Obligations.NoteOffReleasesOrReturns : Prop :=
  ∀ (s : State) (ch : BitVec 4) (k v : BitVec 7), accept s ch = true →
    let rest := s.ctl.held.filter (fun h => h.note ≠ k)
    let wasLast := s.ctl.held.getLast?.map HeldNote.note = some k
    ((∀ h ∈ s.ctl.held, h.note ≠ k) → exec (.noteOff ch k v) s = .next s) ∧
    ((∃ h ∈ s.ctl.held, h.note = k) → rest = [] →
      exec (.noteOff ch k v) s = .next { s with
        ctl := { s.ctl with held := [] }
        voice := { s.voice with
          env1 := { s.voice.env1 with stage := if s.voice.env1.stage = .dead then .dead else .release }
          env2 := { s.voice.env2 with stage := if s.voice.env2.stage = .dead then .dead else .release }
          gate := false } }) ∧
    (∀ before m, rest = before ++ [m] → (∃ h ∈ s.ctl.held, h.note = k) →
      exec (.noteOff ch k v) s = .next
        (if arpMode s = .off ∧ wasLast then
          voiceTrigger { s with ctl := { s.ctl with held := rest } } (m.note.setWidth 8) m.velocity s.cfg.legato
        else { s with ctl := { s.ctl with held := rest } }))

/-! ## External clock -/

/-- R394 to R396, R436 to R438: CLOCK, START and STOP. -/
def Obligations.ClockStartAndStop : Prop :=
  ∀ s : State,
    (¬ (extClock s = true ∧ s.ctl.extRun = true) → exec .clock s = .next s) ∧
    (extClock s = true → s.ctl.extRun = true → s.ctl.pulseCtr + 1 < s.cfg.clocksPerStep →
      exec .clock s = .next { s with ctl := { s.ctl with pulseCtr := s.ctl.pulseCtr + 1 } }) ∧
    (extClock s = true → s.ctl.extRun = true → s.cfg.clocksPerStep ≤ s.ctl.pulseCtr + 1 →
      exec .clock s = .next { s with
        ctl := { s.ctl with pulseCtr := 0, extPending := BitVec.ofNat 8 (min 255 (s.ctl.extPending.toNat + 1)) } }) ∧
    exec .start s = .next { s with
      ctl := { s.ctl with extRun := true, stepIndex := 0, arpPos := 0, pulseCtr := 0, extPending := 1 } } ∧
    exec .stop s = .next { s with ctl := { s.ctl with extRun := false, extPending := 0 } }

/-- R394: under the external clock, between START and STOP, every CLOCKS_PER_STEP clocks from a fresh count make one step
boundary due, with saturation at 255, and change nothing else. -/
def Obligations.ClocksPerStepClocksMakeOneStepDue : Prop :=
  ∀ s : State, extClock s = true → s.ctl.extRun = true → s.ctl.pulseCtr = 0 → 1 ≤ s.cfg.clocksPerStep →
    execAll (List.replicate s.cfg.clocksPerStep .clock) s = .next { s with
      ctl := { s.ctl with extPending := BitVec.ofNat 8 (min 255 (s.ctl.extPending.toNat + 1)) } }

/-! ## Packed fields of the patch -/

/-- R384, R55, R152, R380, R151, R320, R319, R50 to R52: the named readings that other statements use, each as the number that
the patch byte holds. -/
def Obligations.PatchFieldReadings : Prop :=
  ∀ s : State,
    let byte := fun a : Nat => (readPatch s a).toNat
    let seq := 31 + 2 * s.cfg.numModSlots
    (extClock s = true ↔ byte seq = 0) ∧
    (arpMode s =
      if byte (seq + 1) = 1 then .up
      else if byte (seq + 1) = 2 then .down
      else if byte (seq + 1) = 3 then .upDown
      else if byte (seq + 1) = 4 then .random
      else .off) ∧
    octaveSpan s = max 1 (min 4 (byte (seq + 2))) ∧
    (∀ k, (stepValue s k).toNat =
      if k % 2 = 0 then byte (seq + 6 + k / 2) % 16 else byte (seq + 6 + k / 2) / 16) ∧
    ∀ i : Nat,
      let src := byte (31 + 2 * i) % 16
      let dst := byte (31 + 2 * i) / 16
      (slotAmount s i = if byte (32 + 2 * i) < 128 then (byte (32 + 2 * i) : Int) else byte (32 + 2 * i) - 256) ∧
      (slotTarget s i = .vca ↔ dst = 10) ∧ (slotTarget s i = .reserved ↔ 11 ≤ dst) ∧
      (∀ d : Dest, slotTarget s i = .additive d ↔
        ([.cutoff, .resonance, .pwm1, .pwm2, .osc1Pitch, .osc2Pitch, .finePitch, .mixBalance, .noise, .sub] :
          List Dest)[dst]? = some d) ∧
      (([s.eng.gsrc.lfo1, s.eng.gsrc.lfo2, s.eng.gsrc.wheel, s.eng.gsrc.random, s.eng.gsrc.bend, s.eng.gsrc.seqValue,
        s.eng.gsrc.seqGate, s.eng.gsrc.cv1, s.eng.gsrc.cv2, s.eng.gsrc.cv3, s.eng.gsrc.cv4, s.voice.vsrc.env1,
        s.voice.vsrc.env2, s.voice.vsrc.pitch, s.voice.vsrc.velocity, s.voice.vsrc.gate] : List Byte)[src]? =
          some (sourceValue s (slotSource s i))) ∧
      bias (slotSource s i) = if src = 0 ∨ src = 1 ∨ src = 4 then 128 else 0

/-! ## The control tick -/

/-- R450, R451, R315, R302: CONTROL completes in every state, draws the RANDOM source last (after the sample-and-hold draws of
LFO1 and LFO2, and after the draw of a RANDOM arpeggio note), refreshes every global and per-voice source, and leaves the
patch, the host's registers, the held notes, the transport and the receiver unchanged. What it leaves in the LFOs is
DriftCorrectionResetsSyncedLfos. -/
def Obligations.ControlRefreshesEverySource : Prop :=
  ∀ s : State, ∃ t, exec .control s = .next t ∧
    (let r1 := (s.lfo1.advance s.eng.rng).2
     let r2 := (s.lfo2.advance r1).2
     t.eng.rng = rngStep (if arpNoteDue s = true ∧ arpMode s = .random then rngStep r2 else r2)) ∧
    t.eng.gsrc.random.toNat = t.eng.rng.toNat % 256 ∧
    t.eng.gsrc.lfo1 = t.lfo1.render s.cfg ∧ t.eng.gsrc.lfo2 = t.lfo2.render s.cfg ∧
    t.eng.gsrc.wheel.toNat = s.eng.wheel.toNat * 2 ∧ t.eng.gsrc.bend.toNat = s.eng.bend.toNat / 64 ∧
    t.eng.gsrc.seqValue = t.ctl.seqValue ∧ t.eng.gsrc.seqGate = t.ctl.seqGate ∧
    t.eng.gsrc.cv1 = s.eng.cvIn0 ∧ t.eng.gsrc.cv2 = s.eng.cvIn1 ∧ t.eng.gsrc.cv3 = s.eng.cvIn2 ∧
    t.eng.gsrc.cv4 = s.eng.cvIn3 ∧
    t.voice.vsrc.env1.toNat = t.voice.env1.value.toNat / 64 ∧ t.voice.vsrc.env2.toNat = t.voice.env2.value.toNat / 64 ∧
    (t.voice.vsrc.pitch.toNat : Int) = max 0 (min 255 (t.voice.pitch.toInt / 64)) ∧
    t.voice.vsrc.velocity.toNat = t.voice.velocity.toNat * 2 ∧
    t.voice.vsrc.gate = (if t.voice.gate then 255 else 0) ∧
    t = { s with
      lfo1 := t.lfo1
      lfo2 := t.lfo2
      voice := { t.voice with
        osc1 := { s.voice.osc1 with inc := t.voice.osc1.inc, aux := t.voice.osc1.aux }
        osc2 := { s.voice.osc2 with inc := t.voice.osc2.inc, aux := t.voice.osc2.aux }
        sub := { s.voice.sub with inc := t.voice.sub.inc, aux := t.voice.sub.aux }
        retriggered := false
        prevHigh := s.voice.prevHigh
        wrapped := s.voice.wrapped }
      eng := { s.eng with rng := t.eng.rng, gsrc := t.eng.gsrc, lfoSyncSteps := t.eng.lfoSyncSteps }
      ctl := { t.ctl with extRun := s.ctl.extRun, held := s.ctl.held, pulseCtr := s.ctl.pulseCtr }
      out := t.out
      sched := t.sched
      emitted := t.emitted }

/-- R327, R330 to R333: after CONTROL every additive destination is the clipped sum of its initial value, its slots and the
hardcoded modulations, over the sources the tick refreshed; the VCA gain is the matrix's (VcaGainIsBoundedAndMirrored); the
oscillators have the increments of the composed, folded pitches and the shapes; and the three output registers have the
voice's outputs. The pitches are composed of the glided pitch, each oscillator's range, the keyboard octave, the coarse and
the fine pitch destination and oscillator 2's detune. -/
def Obligations.ControlResolvesTheMatrix : Prop :=
  ∀ s : State, ∃ t, exec .control s = .next t ∧
    let signed7 := fun a : Nat => ((((readPatch s a).toNat % 128 + 64) % 128 : Nat) : Int) - 64
    let common := signed7 27 * 1536 + (((t.voice.dst.get .finePitch).toNat : Int) - 8192) / 64
    let p1 := t.voice.pitch.toInt + signed7 2 * 128 + common + (((t.voice.dst.get .osc1Pitch).toNat : Int) - 8192) / 8
    let p2 := t.voice.pitch.toInt + signed7 6 * 128 + common + (((t.voice.dst.get .osc2Pitch).toNat : Int) - 8192) / 8
      + ((readPatch s 7).toNat % 128 : Nat)
    (∀ d : Dest, ((t.voice.dst.get d).toNat : Int) = max 0 (min 16383 (destSum t d))) ∧
    (t.voice.vca.toNat : Int) = (matrixOf t).vca ∧
    t.voice.osc1.inc = pitchIncrement s.cfg (fold s.cfg p1) ∧
    t.voice.osc2.inc = pitchIncrement s.cfg (fold s.cfg p2) ∧
    t.voice.sub.inc = pitchIncrement s.cfg (fold s.cfg (p1 - 1536)) ∧
    t.voice.osc1.aux.toNat = (t.voice.dst.get .pwm1).toNat / 64 ∧
    t.voice.osc2.aux.toNat = (t.voice.dst.get .pwm2).toNat / 64 ∧ t.voice.sub.aux = 0 ∧
    t.out.cvCutoff.toNat = (t.voice.dst.get .cutoff).toNat / 64 ∧
    t.out.cvResonance.toNat = (t.voice.dst.get .resonance).toNat / 64 ∧
    t.out.cvAmplitude.toNat = t.voice.env2.value.toNat / 64 * (t.voice.vca.toNat + 1) / 256

/-- R351, R320, R322: the route byte of a slot whose amount is 0 changes nothing that the matrix gives. -/
def Obligations.ZeroAmountSlotsHaveNoEffect : Prop :=
  ∀ (s : State) (i : Nat) (r : Byte), s.storesOk → i < s.cfg.numModSlots → readPatch s (offAmount i) = 0 →
    matrixOf (writePatch s (offRoute i) r) = matrixOf s

/-- R324, R323, R320, R325: one VCA slot in numbers, the last slot scaled by the wheel whatever WHEEL_SCALE_ALL says; the
matrix's gain is unity combined with every VCA slot of nonzero amount in stored order; it is 0..255; a slot of negative amount
acts as one of the opposite amount on the mirrored source. -/
def Obligations.VcaGainIsBoundedAndMirrored : Prop :=
  (∀ (wheel value : Byte) (gain amt : Int) (last : Bool),
    let depth : Int := if amt < 0 then -amt else amt
    let a : Int := if last then depth * wheel.toNat / 256 else depth
    let target : Int := if amt < 0 then 255 - (value.toNat : Int) else value.toNat
    let t : Int := min 255 (2 * a)
    vcaCombine wheel gain value.toNat amt last = gain * (255 + (target - 255) * t / 256 + 1) / 256) ∧
  (∀ s : State, (matrixOf s).vca = (List.range s.cfg.numModSlots).foldl
    (fun gain i =>
      if slotAmount s i ≠ 0 ∧ slotTarget s i = .vca then
        vcaCombine s.eng.gsrc.wheel gain (sourceValue s (slotSource s i)).toNat (slotAmount s i)
          (decide (i + 1 = s.cfg.numModSlots))
      else gain) 255) ∧
  (∀ s : State, 0 ≤ (matrixOf s).vca ∧ (matrixOf s).vca ≤ 255) ∧
  ∀ (wheel value : Byte) (gain amt : Int) (last : Bool), -127 ≤ amt → amt ≤ -1 →
    vcaCombine wheel gain value.toNat amt last = vcaCombine wheel gain (255 - value.toNat) (-amt) last

/-- R331: the fold is by whole octaves, only as many as are needed, and lands in the range. -/
def Obligations.FoldLandsInTheTableRange : Prop :=
  ∀ (c : Config) (p : Int),
    let q := fold c p
    0 ≤ q ∧ q ≤ (c.tableBase : Int) + 1535 ∧ (q - p) % 1536 = 0 ∧
    (0 ≤ p ∧ p ≤ (c.tableBase : Int) + 1535 → q = p) ∧
    (p < 0 → q < 1536) ∧ ((c.tableBase : Int) + 1535 < p → (c.tableBase : Int) + 1535 - 1536 < q)

/-- R276, R277: the increment of a pitch in the fold range is the table's at the offset its octave folds lead to, shifted once
for each, and one octave down halves it. -/
def Obligations.PitchIncrementFoldsByOctaves : Prop :=
  ∀ (c : Config) (p : Int), 0 ≤ p → p ≤ (c.tableBase : Int) + 1535 →
    (∃ k o : Nat, p + 1536 * k = c.tableBase + o ∧ o < 1536 ∧ pitchIncrement c p = pitchTable c o >>> k) ∧
    (p + 1536 < c.tableBase → pitchIncrement c p = pitchIncrement c (p + 1536) >>> 1) ∧
    (p < c.tableBase → (c.tableBase : Int) ≤ p + 1536 →
      pitchIncrement c p = pitchTable c (p + 1536 - c.tableBase).toNat >>> 1)

/-- R317: the glide snaps to the target when the step would reach or pass it, and otherwise moves the pitch by the step. -/
def Obligations.GlideMovesAndSnaps : Prop :=
  ∀ v : Voice,
    let p := v.pitch.toInt
    let g := v.glideInc.toInt
    let reaches := (0 < g ∧ v.target.toInt ≤ p + g) ∨ (g < 0 ∧ p + g ≤ v.target.toInt)
    (reaches → v.glide = { v with pitch := v.target, glideInc := 0 }) ∧
    (¬ reaches → v.glide = { v with pitch := v.glide.pitch } ∧ v.glide.pitch.toInt = p + g)

/-- R206, R215: between triggers an attack rises to full scale and enters DECAY, and a release falls to zero and dies, in
exactly the number of renders that the increment gives; a decay moves toward the sustain level and never passes it. -/
def Obligations.EnvelopeStagesEndOnTime : Prop :=
  (∀ e : Envelope, e.stage = .attack → 1 ≤ e.incA →
    let n := if e.value.toNat = 16383 then 1 else (16383 - e.value.toNat + e.incA - 1) / e.incA
    (∀ k < n, (Envelope.renders k e).stage = .attack) ∧
      Envelope.renders n e = { e with stage := .decay, value := 16383 }) ∧
  (∀ e : Envelope, e.stage = .release → 1 ≤ e.incR →
    let n := if e.value.toNat = 0 then 1 else (e.value.toNat + e.incR - 1) / e.incR
    (∀ k < n, (Envelope.renders k e).stage = .release) ∧
      Envelope.renders n e = { e with stage := .dead, value := 0 }) ∧
  ∀ e : Envelope,
    (e.stage = .attack → e.value.toNat ≤ e.render.value.toNat) ∧
    (e.stage = .release → e.render.value.toNat ≤ e.value.toNat) ∧
    (e.stage = .decay →
      (e.render.stage = if e.render.value = e.sus then .sustain else .decay) ∧
      (e.sus.toNat ≤ e.value.toNat → e.render.value.toNat = max (e.value.toNat - e.incD) e.sus.toNat) ∧
      (e.value.toNat ≤ e.sus.toNat → e.value.toNat ≤ e.render.value.toNat ∧ e.render.value.toNat ≤ e.sus.toNat) ∧
      (e.sus.toNat ≤ e.value.toNat → e.sus.toNat ≤ e.render.value.toNat ∧ e.render.value.toNat ≤ e.value.toNat)) ∧
    (e.stage = .sustain ∨ e.stage = .dead → e.render = e) ∧
    e.render = { e with stage := e.render.stage, value := e.render.value }

/-- R316, R314, R317: CONTROL renders both envelopes, derives `dead` and advances the glide, on every tick that plays no
arpeggio note, in every arpeggiator mode. A tick that plays one is ArpeggiatorPlaysTheTraversal. -/
def Obligations.ControlRendersEnvelopesAndDerivesDead : Prop :=
  ∀ s : State, arpNoteDue s = false → ∃ t, exec .control s = .next t ∧
    t.voice.env1 = s.voice.env1.render ∧ t.voice.env2 = s.voice.env2.render ∧
    t.voice.dead = (decide (t.voice.env1.stage = .dead) && decide (t.voice.env2.stage = .dead) && !s.voice.retriggered) ∧
    t.voice.gate = s.voice.gate ∧ t.voice.note = s.voice.note ∧ t.voice.velocity = s.voice.velocity ∧
    t.voice.target = s.voice.target ∧ t.voice.pitch = s.voice.glide.pitch ∧ t.voice.glideInc = s.voice.glide.glideInc

/-- R378, R370, R371, R379, R380: the Running state and the step boundaries of a control tick under the internal clock, with the
duration of the step that a boundary starts: swing delays an even step and advances an odd one by the same part of it. A
duration that does not fit the timer is the model's free value (log entry 3). -/
def Obligations.InternalClockStepBoundaries : Prop :=
  ∀ s : State, extClock s = false → ∃ t, exec .control s = .next t ∧
    (s.ctl.held = [] → t.ctl.running = false ∧ t.ctl.stepIndex = s.ctl.stepIndex ∧ t.ctl.stepTimer = s.ctl.stepTimer ∧
      t.ctl.seqGate = if s.ctl.running then 0 else s.ctl.seqGate) ∧
    (s.ctl.held ≠ [] → s.ctl.running = true → s.ctl.stepTimer ≠ 0 →
      t.ctl = { s.ctl with
        stepTimer := t.ctl.stepTimer
        ticksSinceStep := t.ctl.ticksSinceStep } ∧
      t.ctl.stepTimer.toNat + 1 = s.ctl.stepTimer.toNat ∧
      t.ctl.ticksSinceStep.toNat = min 65535 (s.ctl.ticksSinceStep.toNat + 1)) ∧
    (s.ctl.held ≠ [] → s.ctl.running = false ∨ s.ctl.stepTimer = 0 →
      let len := max 1 (min 16 (readPatch s (offSeq s.cfg + 5)).toNat)
      let k := if s.ctl.running then s.ctl.stepIndex.toNat % len else 0
      t.ctl.running = true ∧ t.ctl.stepIndex.toNat = (k + 1) % len ∧ t.ctl.ticksSinceStep = 0 ∧
      t.ctl.seqValue.toNat = (stepValue s k).toNat * 16 ∧
      t.ctl.seqGate =
        (if (rhythm s.cfg ((readPatch s (offSeq s.cfg + 3)).toNat % numRhythms s.cfg)).getLsbD k then 255 else 0) ∧
      let d := ticksPerStep s.cfg (readPatch s (offSeq s.cfg)).toNat
      let off := d * (readPatch s (offSeq s.cfg + 4)).toNat / 256
      (d + off < 65536 → t.ctl.stepTimer.toNat + 1 = if k % 2 = 0 then d + off else d - off))

/-- R378, R370, R393: the same under the external clock: one pending boundary at most is taken in a tick, and it sets the tempo
estimate. -/
def Obligations.ExternalClockStepBoundaries : Prop :=
  ∀ s : State, extClock s = true → ∃ t, exec .control s = .next t ∧
    (s.ctl.extRun = false → t.ctl.running = false ∧ t.ctl.stepIndex = s.ctl.stepIndex ∧
      t.ctl.extPending = s.ctl.extPending ∧ t.ctl.extTps = s.ctl.extTps ∧
      t.ctl.seqGate = if s.ctl.running then 0 else s.ctl.seqGate) ∧
    (s.ctl.extRun = true → s.ctl.extPending = 0 → t.ctl.running = true ∧ t.ctl.extPending = 0 ∧
      t.ctl.extTps = s.ctl.extTps ∧
      t.ctl.stepIndex = if s.ctl.running then s.ctl.stepIndex else 0) ∧
    (s.ctl.extRun = true → s.ctl.extPending ≠ 0 →
      let len := max 1 (min 16 (readPatch s (offSeq s.cfg + 5)).toNat)
      let k := if s.ctl.running then s.ctl.stepIndex.toNat % len else 0
      t.ctl.running = true ∧ t.ctl.extPending.toNat + 1 = s.ctl.extPending.toNat ∧
      t.ctl.stepIndex.toNat = (k + 1) % len ∧ t.ctl.ticksSinceStep = 0 ∧
      t.ctl.extTps.toNat = (if s.ctl.running then min 65535 (s.ctl.ticksSinceStep.toNat + 1) else 1) ∧
      t.ctl.seqValue.toNat = (stepValue s k).toNat * 16 ∧
      t.ctl.seqGate =
        if (rhythm s.cfg ((readPatch s (offSeq s.cfg + 3)).toNat % numRhythms s.cfg)).getLsbD k then 255 else 0) ∧
    t.ctl.stepTimer = if s.ctl.extRun = true ∧ s.ctl.running = false then 0 else s.ctl.stepTimer

/-- R381, R385, R380, R371: on every control tick that plays an arpeggio note, under either clock and also on the tick that
enters Running (which restarts the traversal), an arpeggiator plays the element of its traversal, over the held notes sorted
by note number and the octave span, as a trigger that is not legato, before the tick's envelopes and glide. RANDOM draws after
the LFOs. -/
def Obligations.ArpeggiatorPlaysTheTraversal : Prop :=
  ∀ s : State, s.heldOk → arpNoteDue s = true →
    ∃ (t : State) (q : List HeldNote) (j : Nat) (h : HeldNote), exec .control s = .next t ∧
      q.Perm s.ctl.held ∧ q.Pairwise (fun a b => a.note.toNat < b.note.toNat) ∧
      j < q.length * octaveSpan s ∧ q[j % q.length]? = some h ∧
      t.voice.note.toNat = h.note.toNat + 12 * (j / q.length) ∧ t.voice.velocity = h.velocity ∧ t.voice.gate = true ∧
      t.voice.dead = false ∧
      (let u := voiceTrigger s t.voice.note h.velocity false
       t.voice.env1 = u.voice.env1.render ∧ t.voice.env2 = u.voice.env2.render ∧ t.voice.target = u.voice.target ∧
         t.voice.pitch = u.voice.glide.pitch ∧ t.voice.glideInc = u.voice.glide.glideInc) ∧
      (let len := q.length * octaveSpan s
       let pos := if s.ctl.running then s.ctl.arpPos.toNat else 0
       let drawn := rngStep (s.lfo2.advance (s.lfo1.advance s.eng.rng).2).2
       (arpMode s = .up → j = pos % len ∧ t.ctl.arpPos.toNat = (pos + 1) % len) ∧
       (arpMode s = .down → j = len - 1 - pos % len ∧ t.ctl.arpPos.toNat = (pos + 1) % len) ∧
       (arpMode s = .upDown →
         let period := max 1 (2 * len - 2)
         let i := pos % period
         j = (if i < len then i else 2 * len - 2 - i) ∧ t.ctl.arpPos.toNat = (i + 1) % period) ∧
       (arpMode s = .random → j = drawn.toNat % 256 % len ∧ t.ctl.arpPos.toNat = pos))

/-- R232, R450, R240, R241: CONTROL advances LFO1 and then LFO2, and runs the drift correction on them exactly when the tick
crosses a step boundary, with the tempo estimate the boundary leaves; and what the drift correction does. -/
def Obligations.DriftCorrectionResetsSyncedLfos : Prop :=
  (∀ s : State, ∃ t, exec .control s = .next t ∧
    let a := s.lfo1.advance s.eng.rng
    let b := s.lfo2.advance a.2
    let d := driftStep { s with lfo1 := a.1, lfo2 := b.1, ctl := t.ctl }
    (stepBoundary s = false → t.lfo1 = a.1 ∧ t.lfo2 = b.1 ∧ t.eng.lfoSyncSteps = s.eng.lfoSyncSteps) ∧
    (stepBoundary s = true → t.lfo1 = d.lfo1 ∧ t.lfo2 = d.lfo2 ∧ t.eng.lfoSyncSteps = d.eng.lfoSyncSteps)) ∧
  ∀ s : State,
    let synced := fun i : LfoId => (readPatch s (offLfoRate i)).toNat < 16
    let mult := fun i : LfoId => if (readPatch s (offLfoRate i)).toNat < 16 then (readPatch s (offLfoRate i)).toNat + 1 else 1
    let n := mult .lfo1 * mult .lfo2
    let t := driftStep s
    (¬ synced .lfo1 ∧ ¬ synced .lfo2 → t = { s with eng := { s.eng with lfoSyncSteps := 0 } }) ∧
    (synced .lfo1 ∨ synced .lfo2 → s.eng.lfoSyncSteps.toNat + 1 < n →
      t = { s with eng := { s.eng with lfoSyncSteps := t.eng.lfoSyncSteps } } ∧
        t.eng.lfoSyncSteps.toNat = s.eng.lfoSyncSteps.toNat + 1) ∧
    (synced .lfo1 ∨ synced .lfo2 → n ≤ s.eng.lfoSyncSteps.toNat + 1 →
      t = { s with lfo1 := t.lfo1, lfo2 := t.lfo2, eng := { s.eng with lfoSyncSteps := 0 } } ∧
        ∀ i : LfoId,
          (synced i → t.lfo i = { s.lfo i with phase := 0, inc := lfoIncrement s i }) ∧ (¬ synced i → t.lfo i = s.lfo i))

/-- R232, R245: an LFO's advance, with the sample-and-hold draw on a wrap, and what each waveform id renders. An id of
NUM_LFO_WAVES or more is no waveform, also below 4: that the bound comes before the rows of ids 0 to 3 is the model's reading
(log entry 6). The render of the further waveforms is a free value (log entry 2). -/
def Obligations.LfoAdvancesAndRenders : Prop :=
  ∀ (c : Config) (l : Lfo) (r : Half),
    let a := l.advance r
    a.1.phase.toNat = (l.phase.toNat + l.inc.toNat) % 65536 ∧ a.1.inc = l.inc ∧ a.1.wave = l.wave ∧
    (65536 ≤ l.phase.toNat + l.inc.toNat ∧ l.wave = 3 → a.2 = rngStep r ∧ a.1.sh.toNat = (rngStep r).toNat % 256) ∧
    (¬ (65536 ≤ l.phase.toNat + l.inc.toNat ∧ l.wave = 3) → a.2 = r ∧ a.1.sh = l.sh) ∧
    (c.numLfoWaves ≤ l.wave.toNat → l.render c = 128) ∧
    (l.wave = 0 → 0 < c.numLfoWaves → (l.render c).toNat =
      if l.phase.toNat < 32768 then l.phase.toNat / 128 else 255 - (l.phase.toNat - 32768) / 128) ∧
    (l.wave = 1 → 1 < c.numLfoWaves → (l.render c).toNat = l.phase.toNat / 256) ∧
    (l.wave = 2 → 2 < c.numLfoWaves → l.render c = if l.phase.toNat < 32768 then 255 else 0) ∧
    (l.wave = 3 → 3 < c.numLfoWaves → l.render c = l.sh) ∧
    (3 < l.wave.toNat → l.wave.toNat < c.numLfoWaves → l.render c = Config.lfoWaveExt l.wave l.phase)

/-- R300: the generator, in numbers, and that it never reaches 0. -/
def Obligations.RandomDrawShiftsAndTaps : Prop :=
  ∀ r : Half,
    (r.toNat % 2 = 0 → (rngStep r).toNat = r.toNat / 2) ∧
    (r.toNat % 2 = 1 → (rngStep r).toNat = (r.toNat / 2) ^^^ 0xB400) ∧
    (rngOut (rngStep r)).toNat = (rngStep r).toNat % 256 ∧ (r ≠ 0 → rngStep r ≠ 0) ∧
    rngStep 0xACE1 = 0xE270 ∧ rngStep 0xE270 = 0x7138

/-! ## The audio tick -/

/-- R280, R40: the waveform catalog, in numbers. An id of NUM_OSC_ALGS or more renders as NONE, also below 4: that the bound
comes before the rows of ids 0 to 3 is the model's reading (log entry 6). The render of the further algorithms is a free value
(log entry 2). -/
def Obligations.WaveformCatalog : Prop :=
  ∀ (c : Config) (phase : Half) (aux alg : Byte),
    (c.numOscAlgs ≤ alg.toNat → wave c alg phase aux = 128) ∧
    wave c 0 phase aux = 128 ∧
    (1 < c.numOscAlgs → (wave c 1 phase aux).toNat = phase.toNat / 256) ∧
    (2 < c.numOscAlgs → wave c 2 phase aux = if phase.toNat / 256 < 128 + aux.toNat / 2 then 255 else 0) ∧
    (3 < c.numOscAlgs → (wave c 3 phase aux).toNat =
      if phase.toNat < 32768 then phase.toNat / 128 else 255 - (phase.toNat - 32768) / 128) ∧
    (3 < alg.toNat → alg.toNat < c.numOscAlgs → wave c alg phase aux = Config.waveExt alg phase aux)

/-- R341, R342: a cross-fade lies between its two samples, at depth 0 is the first and at depth 255 within one of the second;
a ring modulation is a sample, and 128 with either at 128. Depth 255 is as R341's formula gives it (log entry 16). -/
def Obligations.MixingStaysInRange : Prop :=
  ∀ a b t : Int, 0 ≤ a → a ≤ 255 → 0 ≤ b → b ≤ 255 → 0 ≤ t → t ≤ 255 →
    min a b ≤ xfade a b t ∧ xfade a b t ≤ max a b ∧ xfade a b 0 = a ∧
    (xfade a b 255 = b ∨ xfade a b 255 = b - 1) ∧
    0 ≤ ringMod a b ∧ ringMod a b ≤ 255 ∧ ringMod 128 b = 128 ∧ ringMod a 128 = 128

/-- R460, R301: AUDIO completes in every state; the noise source is updated first, on every NOISE_DECIM-th tick with a draw; it
writes the sample to `resp` and pushes nothing. -/
def Obligations.AudioTicksTheNoise : Prop :=
  ∀ s : State, ∃ t, exec .audio s = .next t ∧
    (s.cfg.noiseDecim ≤ s.eng.noiseCtr + 1 →
      t.eng.noiseCtr = 0 ∧ t.eng.rng = rngStep s.eng.rng ∧ t.eng.noise.toNat = (rngStep s.eng.rng).toNat % 256) ∧
    (s.eng.noiseCtr + 1 < s.cfg.noiseDecim →
      t.eng.noiseCtr = s.eng.noiseCtr + 1 ∧ t.eng.rng = s.eng.rng ∧ t.eng.noise = s.eng.noise) ∧
    (s.voice.dead = true → t.eng.resp = 128 ∧ t.voice = s.voice) ∧
    t = { s with
      voice := t.voice
      eng := { s.eng with resp := t.eng.resp, noiseCtr := t.eng.noiseCtr, rng := t.eng.rng, noise := t.eng.noise } }

/-- R340, R341 to R345: the sample that AUDIO of a live voice returns, in integers, with the noise sample of this tick. -/
def Obligations.LiveVoiceSample : Prop :=
  ∀ s : State, s.voice.dead = false → ∃ t, exec .audio s = .next t ∧
    let s1 : Int := (wave s.cfg s.voice.osc1.alg s.voice.osc1.phase s.voice.osc1.aux).toNat
    let s2 : Int := (wave s.cfg s.voice.osc2.alg s.voice.osc2.phase s.voice.osc2.aux).toNat
    let s3 : Int := (wave s.cfg s.voice.sub.alg s.voice.sub.phase s.voice.sub.aux).toNat
    let bal : Int := ((s.voice.dst.get .mixBalance).toNat / 64 : Nat)
    let opt := (readPatch s 3).toNat
    let m : Int :=
      if opt = 2 then max 0 (min 255 ((s1 - 128) * (s2 - 128) / 128 + 128))
      else if opt = 3 then (s1.toNat ^^^ ((s2 + bal) % 256).toNat : Nat)
      else s1 + (s2 - s1) * bal / 256
    let sub : Int := ((s.voice.dst.get .sub).toNat / 64 : Nat)
    let noise : Int := ((s.voice.dst.get .noise).toNat / 64 : Nat)
    let m' := m + (s3 - m) * sub / 256
    (t.eng.resp.toNat : Int) =
      if s.cfg.costlyAlg = some s.voice.osc1.alg then m else m' + ((t.eng.noise.toNat : Int) - m') * noise / 256

/-- R288 to R290, R344: what AUDIO of a live voice does to its oscillators: each phase advances by its increment; the primary's
wrap shows as a fall of its high byte; with option SYNC a wrap puts the secondary's phase back to 0. -/
def Obligations.LiveVoiceAdvancesItsOscillators : Prop :=
  ∀ s : State, s.voice.dead = false → ∃ t, exec .audio s = .next t ∧
    t.voice.osc1.phase.toNat = (s.voice.osc1.phase.toNat + s.voice.osc1.inc.toNat) % 65536 ∧
    t.voice.prevHigh.toNat = t.voice.osc1.phase.toNat / 256 ∧
    (t.voice.wrapped = true ↔ t.voice.prevHigh.toNat < s.voice.prevHigh.toNat) ∧
    t.voice.osc2.phase.toNat =
      (if (readPatch s 3).toNat = 1 ∧ t.voice.wrapped = true then 0
      else (s.voice.osc2.phase.toNat + s.voice.osc2.inc.toNat) % 65536) ∧
    t.voice.sub.phase.toNat = (s.voice.sub.phase.toNat + s.voice.sub.inc.toNat) % 65536 ∧
    t.voice = { s.voice with
      osc1 := { s.voice.osc1 with phase := t.voice.osc1.phase }
      osc2 := { s.voice.osc2 with phase := t.voice.osc2.phase }
      sub := { s.voice.sub with phase := t.voice.sub.phase }
      prevHigh := t.voice.prevHigh
      wrapped := t.voice.wrapped }

/-! ## Rendering a block -/

/-- R524: without room for a whole block RENDER_BLOCK changes no state at all; with room, and no consumer step inside it, it is
CONTROL and then BLOCK_SIZE audio ticks, whose samples it pushes instead of writing them to `resp`. -/
def Obligations.RenderBlockIsControlAndAudioTicks : Prop :=
  ∀ s : State,
    (s.cfg.ringSize - s.out.ring.length < s.cfg.blockSize → exec .renderBlock s = .next s) ∧
    (s.cfg.blockSize ≤ s.cfg.ringSize - s.out.ring.length → s.sched = [] →
      ∃ t c u, exec .renderBlock s = .next t ∧ exec .control s = .next c ∧
        execAll (List.replicate s.cfg.blockSize .audio) c = .next u ∧
        t = { u with
          eng := { u.eng with resp := s.eng.resp }
          out := { u.out with ring := s.out.ring ++ audioResponses s.cfg.blockSize c } })

/-- R524, R525, R114, R521: a started block under every schedule of consumer steps: what is left in the ring buffer is a tail of
the old samples followed by the block's, which are the same as with no consumer step; and the buffer never overflows. The
schedule, and the record of outputs that counts the consumer steps, are the model's choice (log entry 8). -/
def Obligations.BlockSamplesAreQueuedInOrder : Prop :=
  ∀ s : State, s.cfg.blockSize ≤ s.cfg.ringSize - s.out.ring.length →
    ∃ t c n, exec .renderBlock s = .next t ∧ exec .control { s with sched := [] } = .next c ∧
      t.out.ring = (s.out.ring ++ audioResponses s.cfg.blockSize c).drop n ∧
      n ≤ t.emitted.length - s.emitted.length ∧ t.emitted.drop (t.emitted.length - s.emitted.length) = s.emitted ∧
      (s.ringOk → t.ringOk) ∧ t.eng.resp = s.eng.resp

/-- R533, R115: a consumer step between CONTROL's first and second output-register write puts the new cutoff with the old
resonance and amplitude on the pins. That a CONTROL by itself has these sub-steps is the model's reading (log entry 9). -/
def Obligations.ConsumerCanSeeAMixOfControlValues : Prop :=
  ∀ s : State, s.sched = [.host, .consumer] →
    ∃ t u, exec .control s = .next t ∧ exec .control { s with sched := [] } = .next u ∧
      t.out.cvCutoff = u.out.cvCutoff ∧ t.out.cvResonance = u.out.cvResonance ∧ t.out.cvAmplitude = u.out.cvAmplitude ∧
      t.out.pinCutoff = u.out.cvCutoff ∧ t.out.pinResonance = s.out.cvResonance ∧
      t.out.pinAmplitude = s.out.cvAmplitude ∧ t.emitted.length = s.emitted.length + 1

/-! ## SysEx -/

/-- R491, R492: SYSEX_START and SYSEX_BYTE, state by state, for positions that the 16-bit register and the header hold (log
entries 3 and 4). -/
def Obligations.SysexReceiverSteps : Prop :=
  ∀ (s : State) (b : Byte),
    exec .sysexStart s = .next { s with
      rx := { s.rx with state := .header, pos := 0, sum := 0, hi := 0, cks := 0 } } ∧
    (s.rx.state = .idle ∨ s.rx.state = .success ∨ s.rx.state = .error → exec (.sysexByte b) s = .next s) ∧
    (∀ h, s.rx.state = .header → s.cfg.sysexHeader[s.rx.pos.toNat]? = some h → s.rx.pos.toNat < 65535 →
      exec (.sysexByte b) s = .next { s with
        rx :=
          if b ≠ h then { s.rx with state := .error }
          else if s.rx.pos.toNat + 1 = s.cfg.sysexHeader.length then { s.rx with state := .data, pos := 0 }
          else { s.rx with pos := s.rx.pos + 1 } }) ∧
    (s.rx.state = .data → 0x0F < b.toNat → exec (.sysexByte b) s = .next { s with rx := { s.rx with state := .error } }) ∧
    (s.rx.state = .data → b.toNat ≤ 0x0F → s.rx.pos.toNat < 65535 → s.storesOk →
      let j := s.rx.pos.toNat
      let nb := 2 * patchSize s.cfg
      ∃ t, exec (.sysexByte b) s = .next t ∧ t = { s with rx := t.rx } ∧
        (j < nb → j % 2 = 0 → t.rx = { s.rx with hi := t.rx.hi, pos := s.rx.pos + 1 } ∧ t.rx.hi.toNat = b.toNat) ∧
        (j < nb → j % 2 = 1 →
          t.rx = { s.rx with buf := t.rx.buf, sum := t.rx.sum, pos := s.rx.pos + 1 } ∧
          (readRx t (j / 2)).toNat = s.rx.hi.toNat * 16 + b.toNat ∧ (∀ a, a ≠ j / 2 → readRx t a = readRx s a) ∧
          t.rx.sum.toNat = (s.rx.sum.toNat + (s.rx.hi.toNat * 16 + b.toNat)) % 256) ∧
        (j = nb → t.rx = { s.rx with hi := t.rx.hi, pos := s.rx.pos + 1 } ∧ t.rx.hi.toNat = b.toNat) ∧
        (j = nb + 1 →
          t.rx = { s.rx with cks := t.rx.cks, pos := s.rx.pos + 1 } ∧ t.rx.cks.toNat = s.rx.hi.toNat * 16 + b.toNat) ∧
        (nb + 2 ≤ j → t.rx = { s.rx with state := .error }))

/-- R495, R496, R500, R501: SYSEX_END. It commits exactly a complete, correct and valid transfer, whole, with `recompute_all()`
and nothing else; every other open transfer ends in ERROR with the patch and every other register unchanged; with no open
transfer nothing changes. -/
def Obligations.SysexEndCommitsOrRejects : Prop :=
  ∀ s : State,
    let nb := 2 * patchSize s.cfg
    let good := s.rx.state = .data ∧ s.rx.pos.toNat = nb + 2 ∧ s.rx.cks = s.rx.sum ∧
      (∀ i < 31, (readRx s i).toNat < 0x80) ∧ ∀ i < 8, (readRx s (patchSize s.cfg - 8 + i)).toNat < 0x80
    (s.rx.state ≠ .header → s.rx.state ≠ .data → exec .sysexEnd s = .next s) ∧
    (s.rx.state = .header ∨ s.rx.state = .data → ¬ good →
      exec .sysexEnd s = .next { s with rx := { s.rx with state := .error } }) ∧
    (good → ∃ t, exec .sysexEnd s = .next t ∧ t.rx = { s.rx with state := .success } ∧
      (∀ i < patchSize s.cfg, readPatch t i = readRx s i) ∧
      t = { recomputeAll { s with patch := t.patch } with rx := t.rx } ∧
      t.voice = { s.voice with
        osc1 := { s.voice.osc1 with alg := t.voice.osc1.alg }
        osc2 := { s.voice.osc2 with alg := t.voice.osc2.alg }
        env1 := { t.voice.env1 with stage := s.voice.env1.stage, value := s.voice.env1.value }
        env2 := { t.voice.env2 with stage := s.voice.env2.stage, value := s.voice.env2.value } } ∧
      t.ctl = s.ctl ∧ t.lfo1.phase = s.lfo1.phase ∧ t.lfo2.phase = s.lfo2.phase)

/-- R502: LOAD_PATCH of every patch, from every receiver state: a valid patch is committed whole, an invalid one ends in ERROR
and leaves the patch as it was. Premises: the frame fits the 16-bit position (log entry 3), and the header is not empty (log entry 4). -/
def Obligations.LoadPatchRoundTrip : Prop :=
  ∀ (s : State) (p : List Byte), s.storesOk → p.length = patchSize s.cfg → s.cfg.sysexHeader ≠ [] →
    s.cfg.sysexHeader.length < 65536 → 2 * patchSize s.cfg + 2 < 65536 →
    ∃ t, execAll (loadPatchCommands s.cfg p) s = .next t ∧
      (validBuf s.cfg (fun a => p.getD a 0) = true →
        t.rx.state = .success ∧ ∀ a < patchSize s.cfg, readPatch t a = p.getD a 0) ∧
      (validBuf s.cfg (fun a => p.getD a 0) = false → t.rx.state = .error ∧ t = { s with rx := t.rx })

/-- R503: LOAD_PATCH with one data nibble's byte changed to any other byte, and the checksum left, ends in ERROR with the patch
and everything derived from it unchanged. Premises as in LoadPatchRoundTrip (log entries 3 and 4). -/
def Obligations.SingleNibbleCorruptionIsRejected : Prop :=
  ∀ (s : State) (p : List Byte) (j : Nat) (b : Byte), s.storesOk → p.length = patchSize s.cfg →
    s.cfg.sysexHeader ≠ [] → s.cfg.sysexHeader.length < 65536 → 2 * patchSize s.cfg + 2 < 65536 →
    j < 2 * patchSize s.cfg →
    (loadPatchCommands s.cfg p)[1 + s.cfg.sysexHeader.length + j]? ≠ some (.sysexByte b) →
    ∃ t, execAll ((loadPatchCommands s.cfg p).set (1 + s.cfg.sysexHeader.length + j) (.sysexByte b)) s = .next t ∧
      t.rx.state = .error ∧ t = { s with rx := t.rx }
end

