-- ==== Sys2Proof/Laws/State.lean ====
section
/-! SUPPORT. One lemma per field of `State` per named update, so that no later proof unfolds a record update. -/

namespace Sys2Proof.Machine

@[simp] theorem setVoice_cfg (s : State) (v : Voice) : (s.setVoice v).cfg = s.cfg := rfl
@[simp] theorem setVoice_patch (s : State) (v : Voice) : (s.setVoice v).patch = s.patch := rfl
@[simp] theorem setVoice_eng (s : State) (v : Voice) : (s.setVoice v).eng = s.eng := rfl
@[simp] theorem setVoice_lfo1 (s : State) (v : Voice) : (s.setVoice v).lfo1 = s.lfo1 := rfl
@[simp] theorem setVoice_lfo2 (s : State) (v : Voice) : (s.setVoice v).lfo2 = s.lfo2 := rfl
@[simp] theorem setVoice_voice (s : State) (v : Voice) : (s.setVoice v).voice = v := rfl
@[simp] theorem setVoice_ctl (s : State) (v : Voice) : (s.setVoice v).ctl = s.ctl := rfl
@[simp] theorem setVoice_rx (s : State) (v : Voice) : (s.setVoice v).rx = s.rx := rfl
@[simp] theorem setVoice_out (s : State) (v : Voice) : (s.setVoice v).out = s.out := rfl
@[simp] theorem setVoice_port (s : State) (v : Voice) : (s.setVoice v).port = s.port := rfl
@[simp] theorem setVoice_sched (s : State) (v : Voice) : (s.setVoice v).sched = s.sched := rfl
@[simp] theorem setVoice_emitted (s : State) (v : Voice) : (s.setVoice v).emitted = s.emitted := rfl

@[simp] theorem setCtl_cfg (s : State) (c : Controller) : (s.setCtl c).cfg = s.cfg := rfl
@[simp] theorem setCtl_patch (s : State) (c : Controller) : (s.setCtl c).patch = s.patch := rfl
@[simp] theorem setCtl_eng (s : State) (c : Controller) : (s.setCtl c).eng = s.eng := rfl
@[simp] theorem setCtl_lfo1 (s : State) (c : Controller) : (s.setCtl c).lfo1 = s.lfo1 := rfl
@[simp] theorem setCtl_lfo2 (s : State) (c : Controller) : (s.setCtl c).lfo2 = s.lfo2 := rfl
@[simp] theorem setCtl_voice (s : State) (c : Controller) : (s.setCtl c).voice = s.voice := rfl
@[simp] theorem setCtl_ctl (s : State) (c : Controller) : (s.setCtl c).ctl = c := rfl
@[simp] theorem setCtl_rx (s : State) (c : Controller) : (s.setCtl c).rx = s.rx := rfl
@[simp] theorem setCtl_out (s : State) (c : Controller) : (s.setCtl c).out = s.out := rfl
@[simp] theorem setCtl_port (s : State) (c : Controller) : (s.setCtl c).port = s.port := rfl
@[simp] theorem setCtl_sched (s : State) (c : Controller) : (s.setCtl c).sched = s.sched := rfl
@[simp] theorem setCtl_emitted (s : State) (c : Controller) : (s.setCtl c).emitted = s.emitted := rfl

@[simp] theorem setEng_cfg (s : State) (e : Engine) : (s.setEng e).cfg = s.cfg := rfl
@[simp] theorem setEng_patch (s : State) (e : Engine) : (s.setEng e).patch = s.patch := rfl
@[simp] theorem setEng_eng (s : State) (e : Engine) : (s.setEng e).eng = e := rfl
@[simp] theorem setEng_lfo1 (s : State) (e : Engine) : (s.setEng e).lfo1 = s.lfo1 := rfl
@[simp] theorem setEng_lfo2 (s : State) (e : Engine) : (s.setEng e).lfo2 = s.lfo2 := rfl
@[simp] theorem setEng_voice (s : State) (e : Engine) : (s.setEng e).voice = s.voice := rfl
@[simp] theorem setEng_ctl (s : State) (e : Engine) : (s.setEng e).ctl = s.ctl := rfl
@[simp] theorem setEng_rx (s : State) (e : Engine) : (s.setEng e).rx = s.rx := rfl
@[simp] theorem setEng_out (s : State) (e : Engine) : (s.setEng e).out = s.out := rfl
@[simp] theorem setEng_port (s : State) (e : Engine) : (s.setEng e).port = s.port := rfl
@[simp] theorem setEng_sched (s : State) (e : Engine) : (s.setEng e).sched = s.sched := rfl
@[simp] theorem setEng_emitted (s : State) (e : Engine) : (s.setEng e).emitted = s.emitted := rfl

@[simp] theorem setRx_cfg (s : State) (r : Receiver) : (s.setRx r).cfg = s.cfg := rfl
@[simp] theorem setRx_patch (s : State) (r : Receiver) : (s.setRx r).patch = s.patch := rfl
@[simp] theorem setRx_eng (s : State) (r : Receiver) : (s.setRx r).eng = s.eng := rfl
@[simp] theorem setRx_lfo1 (s : State) (r : Receiver) : (s.setRx r).lfo1 = s.lfo1 := rfl
@[simp] theorem setRx_lfo2 (s : State) (r : Receiver) : (s.setRx r).lfo2 = s.lfo2 := rfl
@[simp] theorem setRx_voice (s : State) (r : Receiver) : (s.setRx r).voice = s.voice := rfl
@[simp] theorem setRx_ctl (s : State) (r : Receiver) : (s.setRx r).ctl = s.ctl := rfl
@[simp] theorem setRx_rx (s : State) (r : Receiver) : (s.setRx r).rx = r := rfl
@[simp] theorem setRx_out (s : State) (r : Receiver) : (s.setRx r).out = s.out := rfl
@[simp] theorem setRx_port (s : State) (r : Receiver) : (s.setRx r).port = s.port := rfl
@[simp] theorem setRx_sched (s : State) (r : Receiver) : (s.setRx r).sched = s.sched := rfl
@[simp] theorem setRx_emitted (s : State) (r : Receiver) : (s.setRx r).emitted = s.emitted := rfl

@[simp] theorem setOut_cfg (s : State) (o : Output) : (s.setOut o).cfg = s.cfg := rfl
@[simp] theorem setOut_patch (s : State) (o : Output) : (s.setOut o).patch = s.patch := rfl
@[simp] theorem setOut_eng (s : State) (o : Output) : (s.setOut o).eng = s.eng := rfl
@[simp] theorem setOut_lfo1 (s : State) (o : Output) : (s.setOut o).lfo1 = s.lfo1 := rfl
@[simp] theorem setOut_lfo2 (s : State) (o : Output) : (s.setOut o).lfo2 = s.lfo2 := rfl
@[simp] theorem setOut_voice (s : State) (o : Output) : (s.setOut o).voice = s.voice := rfl
@[simp] theorem setOut_ctl (s : State) (o : Output) : (s.setOut o).ctl = s.ctl := rfl
@[simp] theorem setOut_rx (s : State) (o : Output) : (s.setOut o).rx = s.rx := rfl
@[simp] theorem setOut_out (s : State) (o : Output) : (s.setOut o).out = o := rfl
@[simp] theorem setOut_port (s : State) (o : Output) : (s.setOut o).port = s.port := rfl
@[simp] theorem setOut_sched (s : State) (o : Output) : (s.setOut o).sched = s.sched := rfl
@[simp] theorem setOut_emitted (s : State) (o : Output) : (s.setOut o).emitted = s.emitted := rfl

@[simp] theorem setLfo_cfg (s : State) (i : LfoId) (l : Lfo) : (s.setLfo i l).cfg = s.cfg := by cases i <;> rfl
@[simp] theorem setLfo_patch (s : State) (i : LfoId) (l : Lfo) : (s.setLfo i l).patch = s.patch := by cases i <;> rfl
@[simp] theorem setLfo_eng (s : State) (i : LfoId) (l : Lfo) : (s.setLfo i l).eng = s.eng := by cases i <;> rfl
@[simp] theorem setLfo_voice (s : State) (i : LfoId) (l : Lfo) : (s.setLfo i l).voice = s.voice := by cases i <;> rfl
@[simp] theorem setLfo_ctl (s : State) (i : LfoId) (l : Lfo) : (s.setLfo i l).ctl = s.ctl := by cases i <;> rfl
@[simp] theorem setLfo_rx (s : State) (i : LfoId) (l : Lfo) : (s.setLfo i l).rx = s.rx := by cases i <;> rfl
@[simp] theorem setLfo_out (s : State) (i : LfoId) (l : Lfo) : (s.setLfo i l).out = s.out := by cases i <;> rfl
@[simp] theorem setLfo_port (s : State) (i : LfoId) (l : Lfo) : (s.setLfo i l).port = s.port := by cases i <;> rfl
@[simp] theorem setLfo_sched (s : State) (i : LfoId) (l : Lfo) : (s.setLfo i l).sched = s.sched := by cases i <;> rfl
@[simp] theorem setLfo_emitted (s : State) (i : LfoId) (l : Lfo) : (s.setLfo i l).emitted = s.emitted := by cases i <;> rfl
@[simp] theorem setLfo_lfo (s : State) (i : LfoId) (l : Lfo) : (s.setLfo i l).lfo i = l := by cases i <;> rfl
@[simp] theorem setLfo1_lfo1 (s : State) (l : Lfo) : (s.setLfo .lfo1 l).lfo1 = l := rfl
@[simp] theorem setLfo1_lfo2 (s : State) (l : Lfo) : (s.setLfo .lfo1 l).lfo2 = s.lfo2 := rfl
@[simp] theorem setLfo2_lfo1 (s : State) (l : Lfo) : (s.setLfo .lfo2 l).lfo1 = s.lfo1 := rfl
@[simp] theorem setLfo2_lfo2 (s : State) (l : Lfo) : (s.setLfo .lfo2 l).lfo2 = l := rfl

@[simp] theorem writePatch_cfg (s : State) (a : Nat) (x : Byte) : (writePatch s a x).cfg = s.cfg := rfl
@[simp] theorem writePatch_patch (s : State) (a : Nat) (x : Byte) :
    (writePatch s a x).patch = Memory.write (defaultPatchByte s.cfg) s.patch a x := rfl
@[simp] theorem writePatch_eng (s : State) (a : Nat) (x : Byte) : (writePatch s a x).eng = s.eng := rfl
@[simp] theorem writePatch_lfo1 (s : State) (a : Nat) (x : Byte) : (writePatch s a x).lfo1 = s.lfo1 := rfl
@[simp] theorem writePatch_lfo2 (s : State) (a : Nat) (x : Byte) : (writePatch s a x).lfo2 = s.lfo2 := rfl
@[simp] theorem writePatch_voice (s : State) (a : Nat) (x : Byte) : (writePatch s a x).voice = s.voice := rfl
@[simp] theorem writePatch_ctl (s : State) (a : Nat) (x : Byte) : (writePatch s a x).ctl = s.ctl := rfl
@[simp] theorem writePatch_rx (s : State) (a : Nat) (x : Byte) : (writePatch s a x).rx = s.rx := rfl
@[simp] theorem writePatch_out (s : State) (a : Nat) (x : Byte) : (writePatch s a x).out = s.out := rfl
@[simp] theorem writePatch_port (s : State) (a : Nat) (x : Byte) : (writePatch s a x).port = s.port := rfl
@[simp] theorem writePatch_sched (s : State) (a : Nat) (x : Byte) : (writePatch s a x).sched = s.sched := rfl
@[simp] theorem writePatch_emitted (s : State) (a : Nat) (x : Byte) : (writePatch s a x).emitted = s.emitted := rfl

@[simp] theorem readPatch_setVoice (s : State) (v : Voice) (a : Nat) : readPatch (s.setVoice v) a = readPatch s a := rfl
@[simp] theorem readPatch_setCtl (s : State) (c : Controller) (a : Nat) : readPatch (s.setCtl c) a = readPatch s a := rfl
@[simp] theorem readPatch_setEng (s : State) (e : Engine) (a : Nat) : readPatch (s.setEng e) a = readPatch s a := rfl
@[simp] theorem readPatch_setRx (s : State) (r : Receiver) (a : Nat) : readPatch (s.setRx r) a = readPatch s a := rfl
@[simp] theorem readPatch_setOut (s : State) (o : Output) (a : Nat) : readPatch (s.setOut o) a = readPatch s a := rfl
@[simp] theorem readPatch_setLfo (s : State) (i : LfoId) (l : Lfo) (a : Nat) : readPatch (s.setLfo i l) a = readPatch s a := by
  cases i <;> rfl

/-- Reading the patch depends on the configuration and the patch only. -/
theorem readPatch_congr {s t : State} (hc : t.cfg = s.cfg) (hp : t.patch = s.patch) (a : Nat) : readPatch t a = readPatch s a := by
  simp [readPatch, hc, hp]

end Sys2Proof.Machine
end

