-- ==== Sys2Proof/Laws/Memory.lean ====
section
/-! SUPPORT. The laws of the byte store: a read after a write, the canonical form kept by every operation, and memories in
canonical form that read the same are the same list. -/

namespace Sys2Proof.Machine

variable {dflt : Nat → Byte} {size lo a b : Nat} {x v : Byte} {m m' : Memory}

@[simp] theorem Memory.read_nil : Memory.read dflt [] a = dflt a := rfl

@[simp] theorem Memory.read_cons : Memory.read dflt ((b, v) :: m) a = if a = b then v else Memory.read dflt m a := rfl

theorem Memory.read_erase_other (h : a ≠ b) : Memory.read dflt (Memory.erase m b) a = Memory.read dflt m a := by
  induction m with
  | nil => rfl
  | cons c m ih =>
    obtain ⟨d, w⟩ := c
    by_cases hd : b = d
    · subst hd; simp [Memory.erase, h]
    · by_cases ha : a = d <;> simp [Memory.erase, hd, ha, ih]

theorem Memory.read_insert_other (h : a ≠ b) : Memory.read dflt (Memory.insert m b x) a = Memory.read dflt m a := by
  induction m with
  | nil => simp [Memory.insert, h]
  | cons c m ih =>
    obtain ⟨d, w⟩ := c
    by_cases h1 : b < d
    · simp [Memory.insert, h1, h]
    · by_cases h2 : b = d
      · subst h2; simp [Memory.insert, h]
      · by_cases ha : a = d <;> simp [Memory.insert, h1, h2, ha, ih]

/-- A write leaves every other address alone. -/
theorem Memory.read_write_other (h : a ≠ b) : Memory.read dflt (Memory.write dflt m b x) a = Memory.read dflt m a := by
  unfold Memory.write; split
  · exact Memory.read_erase_other h
  · exact Memory.read_insert_other h

theorem Memory.read_insert_self : Memory.read dflt (Memory.insert m a x) a = x := by
  induction m with
  | nil => simp [Memory.insert]
  | cons c m ih =>
    obtain ⟨d, w⟩ := c
    by_cases h1 : a < d
    · simp [Memory.insert, h1]
    · by_cases h2 : a = d
      · simp [Memory.insert, h2]
      · simp [Memory.insert, h1, h2, ih]

theorem Memory.wfFrom_cons : Memory.wfFrom dflt size lo ((b, v) :: m) = true ↔
    lo ≤ b ∧ b < size ∧ v ≠ dflt b ∧ Memory.wfFrom dflt size (b + 1) m = true := by
  simp [Memory.wfFrom, and_assoc]

theorem Memory.wfFrom_mono {lo' : Nat} (h : lo' ≤ lo) (hm : Memory.wfFrom dflt size lo m = true) :
    Memory.wfFrom dflt size lo' m = true := by
  cases m with
  | nil => rfl
  | cons c m =>
    rw [Memory.wfFrom_cons] at *
    exact ⟨h.trans hm.1, hm.2⟩

/-- In canonical form an address below the first one listed is unlisted. -/
theorem Memory.read_below (hm : Memory.wfFrom dflt size lo m = true) (h : a < lo) : Memory.read dflt m a = dflt a := by
  induction m generalizing lo with
  | nil => rfl
  | cons c m ih =>
    obtain ⟨d, w⟩ := c
    rw [Memory.wfFrom_cons] at hm
    have : a ≠ d := by omega
    simp [this, ih hm.2.2.2 (by omega)]

theorem Memory.read_erase_self (hm : Memory.wfFrom dflt size lo m = true) : Memory.read dflt (Memory.erase m a) a = dflt a := by
  induction m generalizing lo with
  | nil => rfl
  | cons c m ih =>
    obtain ⟨d, w⟩ := c
    rw [Memory.wfFrom_cons] at hm
    by_cases h : a = d
    · subst h
      simp only [Memory.erase, if_true]
      exact Memory.read_below hm.2.2.2 (Nat.lt_succ_self a)
    · simp [Memory.erase, h, ih hm.2.2.2]

/-- A read after a write to the same address gives the value written. -/
theorem Memory.read_write_self (hm : Memory.wf dflt size m = true) : Memory.read dflt (Memory.write dflt m a x) a = x := by
  unfold Memory.write; split
  · next h => rw [h]; exact Memory.read_erase_self hm
  · exact Memory.read_insert_self

theorem Memory.wfFrom_erase (hm : Memory.wfFrom dflt size lo m = true) : Memory.wfFrom dflt size lo (Memory.erase m a) = true := by
  induction m generalizing lo with
  | nil => rfl
  | cons c m ih =>
    obtain ⟨d, w⟩ := c
    have hc := Memory.wfFrom_cons.mp hm
    by_cases h : a = d
    · simp only [Memory.erase, h, if_true]
      exact Memory.wfFrom_mono (by omega) hc.2.2.2
    · simp only [Memory.erase, h, if_false]
      exact Memory.wfFrom_cons.mpr ⟨hc.1, hc.2.1, hc.2.2.1, ih hc.2.2.2⟩

theorem Memory.wfFrom_insert (hm : Memory.wfFrom dflt size lo m = true) (hlo : lo ≤ a) (ha : a < size) (hx : x ≠ dflt a) :
    Memory.wfFrom dflt size lo (Memory.insert m a x) = true := by
  induction m generalizing lo with
  | nil => exact Memory.wfFrom_cons.mpr ⟨hlo, ha, hx, rfl⟩
  | cons c m ih =>
    obtain ⟨d, w⟩ := c
    have hc := Memory.wfFrom_cons.mp hm
    by_cases h1 : a < d
    · simp only [Memory.insert, h1, if_true]
      exact Memory.wfFrom_cons.mpr ⟨hlo, ha, hx, Memory.wfFrom_cons.mpr ⟨h1, hc.2⟩⟩
    · by_cases h2 : a = d
      · subst h2
        simp only [Memory.insert, lt_irrefl, if_false, if_true]
        exact Memory.wfFrom_cons.mpr ⟨hlo, ha, hx, hc.2.2.2⟩
      · simp only [Memory.insert, h1, h2, if_false]
        exact Memory.wfFrom_cons.mpr ⟨hc.1, hc.2.1, hc.2.2.1, ih hc.2.2.2 (by omega)⟩

/-- A write inside the memory keeps the canonical form. -/
theorem Memory.wf_write (hm : Memory.wf dflt size m = true) (ha : a < size) :
    Memory.wf dflt size (Memory.write dflt m a x) = true := by
  unfold Memory.wf Memory.write at *; split
  · exact Memory.wfFrom_erase hm
  · next h => exact Memory.wfFrom_insert hm (Nat.zero_le a) ha h

/-- The entries of `Memory.ofFn` for one stretch of addresses. -/
theorem Memory.wfFrom_range' {f : Nat → Byte} {k : Nat} (h : lo + k ≤ size) :
    Memory.wfFrom dflt size lo
      ((List.range' lo k).filterMap (fun a => if f a = dflt a then none else some (a, f a))) = true := by
  induction k generalizing lo with
  | zero => rfl
  | succ k ih =>
    rw [List.range'_succ]
    have hi := ih (lo := lo + 1) (by omega)
    by_cases hf : f lo = dflt lo
    · simp only [List.filterMap_cons, hf, if_true]
      exact Memory.wfFrom_mono (by omega) hi
    · simp only [List.filterMap_cons, hf, if_false]
      exact Memory.wfFrom_cons.mpr ⟨le_refl _, by omega, hf, hi⟩

/-- `Memory.ofFn` is in canonical form. -/
theorem Memory.wf_ofFn {f : Nat → Byte} : Memory.wf dflt size (Memory.ofFn dflt size f) = true := by
  unfold Memory.wf Memory.ofFn
  rw [List.range_eq_range']
  exact Memory.wfFrom_range' (by omega)

theorem Memory.read_range' {f : Nat → Byte} {k : Nat} :
    Memory.read dflt ((List.range' lo k).filterMap (fun a => if f a = dflt a then none else some (a, f a))) a =
      if lo ≤ a ∧ a < lo + k then f a else dflt a := by
  induction k generalizing lo with
  | zero => simp
  | succ k ih =>
    rw [List.range'_succ]
    by_cases hf : f lo = dflt lo
    · simp only [List.filterMap_cons, hf, if_true, ih]
      by_cases ha : a = lo
      · subst ha; simp [hf]
      · have : (lo + 1 ≤ a ∧ a < lo + 1 + k) ↔ (lo ≤ a ∧ a < lo + (k + 1)) := by omega
        exact if_congr this rfl rfl
    · simp only [List.filterMap_cons, hf, if_false, Memory.read_cons, ih]
      by_cases ha : a = lo
      · subst ha; simp
      · have : (lo + 1 ≤ a ∧ a < lo + 1 + k) ↔ (lo ≤ a ∧ a < lo + (k + 1)) := by omega
        rw [if_neg ha]; exact if_congr this rfl rfl

/-- Every address of `Memory.ofFn` inside its size reads as its function. -/
theorem Memory.read_ofFn {f : Nat → Byte} :
    Memory.read dflt (Memory.ofFn dflt size f) a = if a < size then f a else dflt a := by
  unfold Memory.ofFn
  rw [List.range_eq_range', Memory.read_range']
  simp

/-- Two memories in canonical form that read the same everywhere are equal. -/
theorem Memory.ext_of_wfFrom (hm : Memory.wfFrom dflt size lo m = true) (hm' : Memory.wfFrom dflt size lo m' = true)
    (h : ∀ a, Memory.read dflt m a = Memory.read dflt m' a) : m = m' := by
  induction m generalizing lo m' with
  | nil =>
    cases m' with
    | nil => rfl
    | cons c m' =>
      obtain ⟨d, w⟩ := c
      have hc := Memory.wfFrom_cons.mp hm'
      have := h d
      simp at this
      exact absurd this.symm hc.2.2.1
  | cons c m ih =>
    obtain ⟨d, w⟩ := c
    have hc := Memory.wfFrom_cons.mp hm
    cases m' with
    | nil =>
      have := h d
      simp at this
      exact absurd this hc.2.2.1
    | cons c' m' =>
      obtain ⟨d', w'⟩ := c'
      have hc' := Memory.wfFrom_cons.mp hm'
      have hd : d = d' := by
        rcases lt_trichotomy d d' with hlt | heq | hgt
        · have := h d
          have hne : d ≠ d' := by omega
          simp [hne, Memory.read_below hc'.2.2.2 (show d < d' + 1 by omega)] at this
          exact absurd this hc.2.2.1
        · exact heq
        · have := h d'
          have hne : d' ≠ d := by omega
          simp [hne, Memory.read_below hc.2.2.2 (show d' < d + 1 by omega)] at this
          exact absurd this.symm hc'.2.2.1
      subst hd
      have hw : w = w' := by have := h d; simpa using this
      subst hw
      have : m = m' := by
        refine ih hc.2.2.2 hc'.2.2.2 ?_
        intro a
        by_cases ha : a = d
        · subst ha
          rw [Memory.read_below hc.2.2.2 (Nat.lt_succ_self a), Memory.read_below hc'.2.2.2 (Nat.lt_succ_self a)]
        · have := h a
          simpa [ha] using this
      rw [this]

theorem Memory.ext_of_wf (hm : Memory.wf dflt size m = true) (hm' : Memory.wf dflt size m' = true)
    (h : ∀ a, Memory.read dflt m a = Memory.read dflt m' a) : m = m' := Memory.ext_of_wfFrom hm hm' h

/-! The same of the patch. -/

theorem readPatch_writePatch_other {s : State} {i j : Nat} {y : Byte} (h : i ≠ j) :
    readPatch (writePatch s j y) i = readPatch s i := Memory.read_write_other h

theorem readPatch_writePatch_self {s : State} {i : Nat} {y : Byte}
    (hm : Memory.wf (defaultPatchByte s.cfg) (patchSize s.cfg) s.patch = true) :
    readPatch (writePatch s i y) i = y := Memory.read_write_self hm

end Sys2Proof.Machine
end

