-- ==== Sys2Proof/Laws/Ops.lean ====
section
/-! SUPPORT. What each shared operation leaves alone, once: one lemma per operation, a conjunction of field equations that
`simp` uses one by one. A proof about a command cites these instead of unfolding the operation. -/

namespace Sys2Proof.Machine

/-! ## Voice and controller -/

/-- A trigger changes the voice only (R311). -/
@[simp] theorem voiceTrigger_frame (s : State) (n : Byte) (v : BitVec 7) (l : Bool) :
    (voiceTrigger s n v l).cfg = s.cfg ∧
      (voiceTrigger s n v l).patch = s.patch ∧
      (voiceTrigger s n v l).rx = s.rx ∧
      (voiceTrigger s n v l).out = s.out ∧
      (voiceTrigger s n v l).port = s.port ∧
      (voiceTrigger s n v l).sched = s.sched ∧
      (voiceTrigger s n v l).emitted = s.emitted ∧
      (voiceTrigger s n v l).lfo1 = s.lfo1 ∧
      (voiceTrigger s n v l).lfo2 = s.lfo2 ∧
      (voiceTrigger s n v l).eng = s.eng ∧
      (voiceTrigger s n v l).ctl = s.ctl := by
  refine ⟨rfl, rfl, rfl, rfl, rfl, rfl, rfl, rfl, rfl, rfl, rfl⟩

/-- A release changes the voice only (R312). -/
@[simp] theorem voiceRelease_frame (s : State) :
    (voiceRelease s).cfg = s.cfg ∧
      (voiceRelease s).patch = s.patch ∧
      (voiceRelease s).rx = s.rx ∧
      (voiceRelease s).out = s.out ∧
      (voiceRelease s).port = s.port ∧
      (voiceRelease s).sched = s.sched ∧
      (voiceRelease s).emitted = s.emitted ∧
      (voiceRelease s).lfo1 = s.lfo1 ∧
      (voiceRelease s).lfo2 = s.lfo2 ∧
      (voiceRelease s).eng = s.eng ∧
      (voiceRelease s).ctl = s.ctl := by
  refine ⟨rfl, rfl, rfl, rfl, rfl, rfl, rfl, rfl, rfl, rfl, rfl⟩

/-- The voice's control tick changes the voice only (R313). -/
@[simp] theorem voiceControl_frame (s : State) :
    (voiceControl s).cfg = s.cfg ∧
      (voiceControl s).patch = s.patch ∧
      (voiceControl s).rx = s.rx ∧
      (voiceControl s).out = s.out ∧
      (voiceControl s).port = s.port ∧
      (voiceControl s).sched = s.sched ∧
      (voiceControl s).emitted = s.emitted ∧
      (voiceControl s).lfo1 = s.lfo1 ∧
      (voiceControl s).lfo2 = s.lfo2 ∧
      (voiceControl s).eng = s.eng ∧
      (voiceControl s).ctl = s.ctl := by
  refine ⟨rfl, rfl, rfl, rfl, rfl, rfl, rfl, rfl, rfl, rfl, rfl⟩

/-- The voice's audio tick changes the voice only (R340). -/
@[simp] theorem voiceAudio_frame (s : State) :
    ((voiceAudio s).1).cfg = s.cfg ∧
      ((voiceAudio s).1).patch = s.patch ∧
      ((voiceAudio s).1).rx = s.rx ∧
      ((voiceAudio s).1).out = s.out ∧
      ((voiceAudio s).1).port = s.port ∧
      ((voiceAudio s).1).sched = s.sched ∧
      ((voiceAudio s).1).emitted = s.emitted ∧
      ((voiceAudio s).1).lfo1 = s.lfo1 ∧
      ((voiceAudio s).1).lfo2 = s.lfo2 ∧
      ((voiceAudio s).1).eng = s.eng ∧
      ((voiceAudio s).1).ctl = s.ctl := by
  unfold voiceAudio; split <;> refine ⟨rfl, rfl, rfl, rfl, rfl, rfl, rfl, rfl, rfl, rfl, rfl⟩

/-- An arpeggiator step changes the voice, the traversal position and the generator (R381). -/
@[simp] theorem arpStep_frame (s : State) :
    (arpStep s).cfg = s.cfg ∧
      (arpStep s).patch = s.patch ∧
      (arpStep s).rx = s.rx ∧
      (arpStep s).out = s.out ∧
      (arpStep s).port = s.port ∧
      (arpStep s).sched = s.sched ∧
      (arpStep s).emitted = s.emitted ∧
      (arpStep s).lfo1 = s.lfo1 ∧
      (arpStep s).lfo2 = s.lfo2 ∧
      (arpStep s).eng.omni = s.eng.omni ∧
      (arpStep s).eng.wheel = s.eng.wheel ∧
      (arpStep s).eng.bend = s.eng.bend ∧
      (arpStep s).eng.cvIn0 = s.eng.cvIn0 ∧
      (arpStep s).eng.cvIn1 = s.eng.cvIn1 ∧
      (arpStep s).eng.cvIn2 = s.eng.cvIn2 ∧
      (arpStep s).eng.cvIn3 = s.eng.cvIn3 ∧
      (arpStep s).eng.nrpnIndex = s.eng.nrpnIndex ∧
      (arpStep s).eng.noiseCtr = s.eng.noiseCtr ∧
      (arpStep s).eng.noise = s.eng.noise ∧
      (arpStep s).eng.gsrc = s.eng.gsrc ∧
      (arpStep s).eng.lfoSyncSteps = s.eng.lfoSyncSteps ∧
      (arpStep s).eng.resp = s.eng.resp ∧
      (arpStep s).ctl.running = s.ctl.running ∧
      (arpStep s).ctl.extRun = s.ctl.extRun ∧
      (arpStep s).ctl.stepIndex = s.ctl.stepIndex ∧
      (arpStep s).ctl.stepTimer = s.ctl.stepTimer ∧
      (arpStep s).ctl.held = s.ctl.held ∧
      (arpStep s).ctl.pulseCtr = s.ctl.pulseCtr ∧
      (arpStep s).ctl.extPending = s.ctl.extPending ∧
      (arpStep s).ctl.ticksSinceStep = s.ctl.ticksSinceStep ∧
      (arpStep s).ctl.extTps = s.ctl.extTps ∧
      (arpStep s).ctl.seqValue = s.ctl.seqValue ∧
      (arpStep s).ctl.seqGate = s.ctl.seqGate := by
  refine ⟨rfl, rfl, rfl, rfl, rfl, rfl, rfl, rfl, rfl, rfl, rfl, rfl, rfl, rfl, rfl, rfl, rfl, rfl, rfl, rfl, rfl, rfl, rfl, rfl, rfl, rfl, rfl, rfl, rfl, rfl, rfl, rfl, rfl⟩

/-- A step changes, of the controller, its index, its sources and the traversal position (R380). -/
@[simp] theorem doStep_frame (s : State) :
    (doStep s).cfg = s.cfg ∧
      (doStep s).patch = s.patch ∧
      (doStep s).rx = s.rx ∧
      (doStep s).out = s.out ∧
      (doStep s).port = s.port ∧
      (doStep s).sched = s.sched ∧
      (doStep s).emitted = s.emitted ∧
      (doStep s).lfo1 = s.lfo1 ∧
      (doStep s).lfo2 = s.lfo2 ∧
      (doStep s).eng.omni = s.eng.omni ∧
      (doStep s).eng.wheel = s.eng.wheel ∧
      (doStep s).eng.bend = s.eng.bend ∧
      (doStep s).eng.cvIn0 = s.eng.cvIn0 ∧
      (doStep s).eng.cvIn1 = s.eng.cvIn1 ∧
      (doStep s).eng.cvIn2 = s.eng.cvIn2 ∧
      (doStep s).eng.cvIn3 = s.eng.cvIn3 ∧
      (doStep s).eng.nrpnIndex = s.eng.nrpnIndex ∧
      (doStep s).eng.noiseCtr = s.eng.noiseCtr ∧
      (doStep s).eng.noise = s.eng.noise ∧
      (doStep s).eng.gsrc = s.eng.gsrc ∧
      (doStep s).eng.lfoSyncSteps = s.eng.lfoSyncSteps ∧
      (doStep s).eng.resp = s.eng.resp ∧
      (doStep s).ctl.running = s.ctl.running ∧
      (doStep s).ctl.extRun = s.ctl.extRun ∧
      (doStep s).ctl.stepTimer = s.ctl.stepTimer ∧
      (doStep s).ctl.held = s.ctl.held ∧
      (doStep s).ctl.pulseCtr = s.ctl.pulseCtr ∧
      (doStep s).ctl.extPending = s.ctl.extPending ∧
      (doStep s).ctl.ticksSinceStep = s.ctl.ticksSinceStep ∧
      (doStep s).ctl.extTps = s.ctl.extTps := by
  simp only [doStep]; split <;> simp [setSeqSources]

@[simp] theorem playStep_frame (s : State) :
    (playStep s).cfg = s.cfg ∧
      (playStep s).patch = s.patch ∧
      (playStep s).rx = s.rx ∧
      (playStep s).out = s.out ∧
      (playStep s).port = s.port ∧
      (playStep s).sched = s.sched ∧
      (playStep s).emitted = s.emitted ∧
      (playStep s).lfo1 = s.lfo1 ∧
      (playStep s).lfo2 = s.lfo2 ∧
      (playStep s).eng.omni = s.eng.omni ∧
      (playStep s).eng.wheel = s.eng.wheel ∧
      (playStep s).eng.bend = s.eng.bend ∧
      (playStep s).eng.cvIn0 = s.eng.cvIn0 ∧
      (playStep s).eng.cvIn1 = s.eng.cvIn1 ∧
      (playStep s).eng.cvIn2 = s.eng.cvIn2 ∧
      (playStep s).eng.cvIn3 = s.eng.cvIn3 ∧
      (playStep s).eng.nrpnIndex = s.eng.nrpnIndex ∧
      (playStep s).eng.noiseCtr = s.eng.noiseCtr ∧
      (playStep s).eng.noise = s.eng.noise ∧
      (playStep s).eng.gsrc = s.eng.gsrc ∧
      (playStep s).eng.lfoSyncSteps = s.eng.lfoSyncSteps ∧
      (playStep s).eng.resp = s.eng.resp ∧
      (playStep s).ctl.running = s.ctl.running ∧
      (playStep s).ctl.extRun = s.ctl.extRun ∧
      (playStep s).ctl.stepTimer = s.ctl.stepTimer ∧
      (playStep s).ctl.held = s.ctl.held ∧
      (playStep s).ctl.pulseCtr = s.ctl.pulseCtr := by
  simp only [playStep, Controller.takeBoundary]; split <;> simp

@[simp] theorem loadTimer_frame (d : Nat) (s : State) :
    (loadTimer d s).cfg = s.cfg ∧
      (loadTimer d s).patch = s.patch ∧
      (loadTimer d s).rx = s.rx ∧
      (loadTimer d s).out = s.out ∧
      (loadTimer d s).port = s.port ∧
      (loadTimer d s).sched = s.sched ∧
      (loadTimer d s).emitted = s.emitted ∧
      (loadTimer d s).lfo1 = s.lfo1 ∧
      (loadTimer d s).lfo2 = s.lfo2 ∧
      (loadTimer d s).voice = s.voice ∧
      (loadTimer d s).eng = s.eng ∧
      (loadTimer d s).ctl.running = s.ctl.running ∧
      (loadTimer d s).ctl.extRun = s.ctl.extRun ∧
      (loadTimer d s).ctl.stepIndex = s.ctl.stepIndex ∧
      (loadTimer d s).ctl.arpPos = s.ctl.arpPos ∧
      (loadTimer d s).ctl.held = s.ctl.held ∧
      (loadTimer d s).ctl.pulseCtr = s.ctl.pulseCtr ∧
      (loadTimer d s).ctl.extPending = s.ctl.extPending ∧
      (loadTimer d s).ctl.ticksSinceStep = s.ctl.ticksSinceStep ∧
      (loadTimer d s).ctl.extTps = s.ctl.extTps ∧
      (loadTimer d s).ctl.seqValue = s.ctl.seqValue ∧
      (loadTimer d s).ctl.seqGate = s.ctl.seqGate := by
  refine ⟨rfl, rfl, rfl, rfl, rfl, rfl, rfl, rfl, rfl, rfl, rfl, rfl, rfl, rfl, rfl, rfl, rfl, rfl, rfl, rfl, rfl, rfl⟩

@[simp] theorem boundary_frame (s : State) :
    (boundary s).cfg = s.cfg ∧
      (boundary s).patch = s.patch ∧
      (boundary s).rx = s.rx ∧
      (boundary s).out = s.out ∧
      (boundary s).port = s.port ∧
      (boundary s).sched = s.sched ∧
      (boundary s).emitted = s.emitted ∧
      (boundary s).lfo1 = s.lfo1 ∧
      (boundary s).lfo2 = s.lfo2 ∧
      (boundary s).eng.omni = s.eng.omni ∧
      (boundary s).eng.wheel = s.eng.wheel ∧
      (boundary s).eng.bend = s.eng.bend ∧
      (boundary s).eng.cvIn0 = s.eng.cvIn0 ∧
      (boundary s).eng.cvIn1 = s.eng.cvIn1 ∧
      (boundary s).eng.cvIn2 = s.eng.cvIn2 ∧
      (boundary s).eng.cvIn3 = s.eng.cvIn3 ∧
      (boundary s).eng.nrpnIndex = s.eng.nrpnIndex ∧
      (boundary s).eng.noiseCtr = s.eng.noiseCtr ∧
      (boundary s).eng.noise = s.eng.noise ∧
      (boundary s).eng.gsrc = s.eng.gsrc ∧
      (boundary s).eng.lfoSyncSteps = s.eng.lfoSyncSteps ∧
      (boundary s).eng.resp = s.eng.resp ∧
      (boundary s).ctl.running = s.ctl.running ∧
      (boundary s).ctl.extRun = s.ctl.extRun ∧
      (boundary s).ctl.held = s.ctl.held ∧
      (boundary s).ctl.pulseCtr = s.ctl.pulseCtr := by
  simp only [boundary]; split <;> simp

@[simp] theorem countDown_frame (s : State) :
    (countDown s).cfg = s.cfg ∧
      (countDown s).patch = s.patch ∧
      (countDown s).rx = s.rx ∧
      (countDown s).out = s.out ∧
      (countDown s).port = s.port ∧
      (countDown s).sched = s.sched ∧
      (countDown s).emitted = s.emitted ∧
      (countDown s).lfo1 = s.lfo1 ∧
      (countDown s).lfo2 = s.lfo2 ∧
      (countDown s).voice = s.voice ∧
      (countDown s).eng = s.eng ∧
      (countDown s).ctl.running = s.ctl.running ∧
      (countDown s).ctl.extRun = s.ctl.extRun ∧
      (countDown s).ctl.stepIndex = s.ctl.stepIndex ∧
      (countDown s).ctl.arpPos = s.ctl.arpPos ∧
      (countDown s).ctl.held = s.ctl.held ∧
      (countDown s).ctl.pulseCtr = s.ctl.pulseCtr ∧
      (countDown s).ctl.extPending = s.ctl.extPending ∧
      (countDown s).ctl.ticksSinceStep = s.ctl.ticksSinceStep ∧
      (countDown s).ctl.extTps = s.ctl.extTps ∧
      (countDown s).ctl.seqValue = s.ctl.seqValue ∧
      (countDown s).ctl.seqGate = s.ctl.seqGate := by
  simp only [countDown]; split <;> simp

@[simp] theorem settled_frame (s : State) :
    (settled s).cfg = s.cfg ∧
      (settled s).patch = s.patch ∧
      (settled s).rx = s.rx ∧
      (settled s).out = s.out ∧
      (settled s).port = s.port ∧
      (settled s).sched = s.sched ∧
      (settled s).emitted = s.emitted ∧
      (settled s).lfo1 = s.lfo1 ∧
      (settled s).lfo2 = s.lfo2 ∧
      (settled s).voice = s.voice ∧
      (settled s).eng = s.eng ∧
      (settled s).ctl.extRun = s.ctl.extRun ∧
      (settled s).ctl.held = s.ctl.held ∧
      (settled s).ctl.pulseCtr = s.ctl.pulseCtr ∧
      (settled s).ctl.extPending = s.ctl.extPending ∧
      (settled s).ctl.extTps = s.ctl.extTps ∧
      (settled s).ctl.seqValue = s.ctl.seqValue := by
  simp only [settled, Controller.follow, Controller.enter, Controller.leave, Controller.countTick]
  repeat' split
  all_goals simp

/-- The controller's tick changes no held note and no transport register (R378). -/
@[simp] theorem ctlControl_frame (s : State) :
    ((ctlControl s).1).cfg = s.cfg ∧
      ((ctlControl s).1).patch = s.patch ∧
      ((ctlControl s).1).rx = s.rx ∧
      ((ctlControl s).1).out = s.out ∧
      ((ctlControl s).1).port = s.port ∧
      ((ctlControl s).1).sched = s.sched ∧
      ((ctlControl s).1).emitted = s.emitted ∧
      ((ctlControl s).1).lfo1 = s.lfo1 ∧
      ((ctlControl s).1).lfo2 = s.lfo2 ∧
      ((ctlControl s).1).eng.omni = s.eng.omni ∧
      ((ctlControl s).1).eng.wheel = s.eng.wheel ∧
      ((ctlControl s).1).eng.bend = s.eng.bend ∧
      ((ctlControl s).1).eng.cvIn0 = s.eng.cvIn0 ∧
      ((ctlControl s).1).eng.cvIn1 = s.eng.cvIn1 ∧
      ((ctlControl s).1).eng.cvIn2 = s.eng.cvIn2 ∧
      ((ctlControl s).1).eng.cvIn3 = s.eng.cvIn3 ∧
      ((ctlControl s).1).eng.nrpnIndex = s.eng.nrpnIndex ∧
      ((ctlControl s).1).eng.noiseCtr = s.eng.noiseCtr ∧
      ((ctlControl s).1).eng.noise = s.eng.noise ∧
      ((ctlControl s).1).eng.gsrc = s.eng.gsrc ∧
      ((ctlControl s).1).eng.lfoSyncSteps = s.eng.lfoSyncSteps ∧
      ((ctlControl s).1).eng.resp = s.eng.resp ∧
      ((ctlControl s).1).ctl.extRun = s.ctl.extRun ∧
      ((ctlControl s).1).ctl.held = s.ctl.held ∧
      ((ctlControl s).1).ctl.pulseCtr = s.ctl.pulseCtr := by
  simp only [ctlControl]; split <;> simp

/-! ## LFOs and the control tick -/

@[simp] theorem advanceLfos_frame (s : State) :
    (advanceLfos s).cfg = s.cfg ∧
      (advanceLfos s).patch = s.patch ∧
      (advanceLfos s).rx = s.rx ∧
      (advanceLfos s).out = s.out ∧
      (advanceLfos s).port = s.port ∧
      (advanceLfos s).sched = s.sched ∧
      (advanceLfos s).emitted = s.emitted ∧
      (advanceLfos s).voice = s.voice ∧
      (advanceLfos s).eng.omni = s.eng.omni ∧
      (advanceLfos s).eng.wheel = s.eng.wheel ∧
      (advanceLfos s).eng.bend = s.eng.bend ∧
      (advanceLfos s).eng.cvIn0 = s.eng.cvIn0 ∧
      (advanceLfos s).eng.cvIn1 = s.eng.cvIn1 ∧
      (advanceLfos s).eng.cvIn2 = s.eng.cvIn2 ∧
      (advanceLfos s).eng.cvIn3 = s.eng.cvIn3 ∧
      (advanceLfos s).eng.nrpnIndex = s.eng.nrpnIndex ∧
      (advanceLfos s).eng.noiseCtr = s.eng.noiseCtr ∧
      (advanceLfos s).eng.noise = s.eng.noise ∧
      (advanceLfos s).eng.gsrc = s.eng.gsrc ∧
      (advanceLfos s).eng.lfoSyncSteps = s.eng.lfoSyncSteps ∧
      (advanceLfos s).eng.resp = s.eng.resp ∧
      (advanceLfos s).ctl = s.ctl := by
  refine ⟨rfl, rfl, rfl, rfl, rfl, rfl, rfl, rfl, rfl, rfl, rfl, rfl, rfl, rfl, rfl, rfl, rfl, rfl, rfl, rfl, rfl, rfl⟩

@[simp] theorem driftStep_frame (s : State) :
    (driftStep s).cfg = s.cfg ∧
      (driftStep s).patch = s.patch ∧
      (driftStep s).rx = s.rx ∧
      (driftStep s).out = s.out ∧
      (driftStep s).port = s.port ∧
      (driftStep s).sched = s.sched ∧
      (driftStep s).emitted = s.emitted ∧
      (driftStep s).voice = s.voice ∧
      (driftStep s).eng.omni = s.eng.omni ∧
      (driftStep s).eng.wheel = s.eng.wheel ∧
      (driftStep s).eng.bend = s.eng.bend ∧
      (driftStep s).eng.cvIn0 = s.eng.cvIn0 ∧
      (driftStep s).eng.cvIn1 = s.eng.cvIn1 ∧
      (driftStep s).eng.cvIn2 = s.eng.cvIn2 ∧
      (driftStep s).eng.cvIn3 = s.eng.cvIn3 ∧
      (driftStep s).eng.nrpnIndex = s.eng.nrpnIndex ∧
      (driftStep s).eng.rng = s.eng.rng ∧
      (driftStep s).eng.noiseCtr = s.eng.noiseCtr ∧
      (driftStep s).eng.noise = s.eng.noise ∧
      (driftStep s).eng.gsrc = s.eng.gsrc ∧
      (driftStep s).eng.resp = s.eng.resp ∧
      (driftStep s).ctl = s.ctl := by
  simp only [driftStep]; repeat' split
  all_goals simp

@[simp] theorem controllerTick_frame (s : State) :
    (controllerTick s).cfg = s.cfg ∧
      (controllerTick s).patch = s.patch ∧
      (controllerTick s).rx = s.rx ∧
      (controllerTick s).out = s.out ∧
      (controllerTick s).port = s.port ∧
      (controllerTick s).sched = s.sched ∧
      (controllerTick s).emitted = s.emitted ∧
      (controllerTick s).eng.omni = s.eng.omni ∧
      (controllerTick s).eng.wheel = s.eng.wheel ∧
      (controllerTick s).eng.bend = s.eng.bend ∧
      (controllerTick s).eng.cvIn0 = s.eng.cvIn0 ∧
      (controllerTick s).eng.cvIn1 = s.eng.cvIn1 ∧
      (controllerTick s).eng.cvIn2 = s.eng.cvIn2 ∧
      (controllerTick s).eng.cvIn3 = s.eng.cvIn3 ∧
      (controllerTick s).eng.nrpnIndex = s.eng.nrpnIndex ∧
      (controllerTick s).eng.noiseCtr = s.eng.noiseCtr ∧
      (controllerTick s).eng.noise = s.eng.noise ∧
      (controllerTick s).eng.gsrc = s.eng.gsrc ∧
      (controllerTick s).eng.resp = s.eng.resp ∧
      (controllerTick s).ctl.extRun = s.ctl.extRun ∧
      (controllerTick s).ctl.held = s.ctl.held ∧
      (controllerTick s).ctl.pulseCtr = s.ctl.pulseCtr := by
  simp only [controllerTick]; split <;> simp

@[simp] theorem drawRandom_frame (s : State) :
    (drawRandom s).cfg = s.cfg ∧
      (drawRandom s).patch = s.patch ∧
      (drawRandom s).rx = s.rx ∧
      (drawRandom s).out = s.out ∧
      (drawRandom s).port = s.port ∧
      (drawRandom s).sched = s.sched ∧
      (drawRandom s).emitted = s.emitted ∧
      (drawRandom s).lfo1 = s.lfo1 ∧
      (drawRandom s).lfo2 = s.lfo2 ∧
      (drawRandom s).voice = s.voice ∧
      (drawRandom s).eng.omni = s.eng.omni ∧
      (drawRandom s).eng.wheel = s.eng.wheel ∧
      (drawRandom s).eng.bend = s.eng.bend ∧
      (drawRandom s).eng.cvIn0 = s.eng.cvIn0 ∧
      (drawRandom s).eng.cvIn1 = s.eng.cvIn1 ∧
      (drawRandom s).eng.cvIn2 = s.eng.cvIn2 ∧
      (drawRandom s).eng.cvIn3 = s.eng.cvIn3 ∧
      (drawRandom s).eng.nrpnIndex = s.eng.nrpnIndex ∧
      (drawRandom s).eng.noiseCtr = s.eng.noiseCtr ∧
      (drawRandom s).eng.noise = s.eng.noise ∧
      (drawRandom s).eng.lfoSyncSteps = s.eng.lfoSyncSteps ∧
      (drawRandom s).eng.resp = s.eng.resp ∧
      (drawRandom s).ctl = s.ctl := by
  refine ⟨rfl, rfl, rfl, rfl, rfl, rfl, rfl, rfl, rfl, rfl, rfl, rfl, rfl, rfl, rfl, rfl, rfl, rfl, rfl, rfl, rfl, rfl, rfl⟩

@[simp] theorem refreshSources_frame (s : State) :
    (refreshSources s).cfg = s.cfg ∧
      (refreshSources s).patch = s.patch ∧
      (refreshSources s).rx = s.rx ∧
      (refreshSources s).out = s.out ∧
      (refreshSources s).port = s.port ∧
      (refreshSources s).sched = s.sched ∧
      (refreshSources s).emitted = s.emitted ∧
      (refreshSources s).lfo1 = s.lfo1 ∧
      (refreshSources s).lfo2 = s.lfo2 ∧
      (refreshSources s).voice = s.voice ∧
      (refreshSources s).eng.omni = s.eng.omni ∧
      (refreshSources s).eng.wheel = s.eng.wheel ∧
      (refreshSources s).eng.bend = s.eng.bend ∧
      (refreshSources s).eng.cvIn0 = s.eng.cvIn0 ∧
      (refreshSources s).eng.cvIn1 = s.eng.cvIn1 ∧
      (refreshSources s).eng.cvIn2 = s.eng.cvIn2 ∧
      (refreshSources s).eng.cvIn3 = s.eng.cvIn3 ∧
      (refreshSources s).eng.nrpnIndex = s.eng.nrpnIndex ∧
      (refreshSources s).eng.rng = s.eng.rng ∧
      (refreshSources s).eng.noiseCtr = s.eng.noiseCtr ∧
      (refreshSources s).eng.noise = s.eng.noise ∧
      (refreshSources s).eng.lfoSyncSteps = s.eng.lfoSyncSteps ∧
      (refreshSources s).eng.resp = s.eng.resp ∧
      (refreshSources s).ctl = s.ctl := by
  refine ⟨rfl, rfl, rfl, rfl, rfl, rfl, rfl, rfl, rfl, rfl, rfl, rfl, rfl, rfl, rfl, rfl, rfl, rfl, rfl, rfl, rfl, rfl, rfl, rfl⟩

/-- The core of CONTROL: what it leaves alone (R450). -/
@[simp] theorem controlCore_frame (s : State) :
    (controlCore s).cfg = s.cfg ∧
      (controlCore s).patch = s.patch ∧
      (controlCore s).rx = s.rx ∧
      (controlCore s).out = s.out ∧
      (controlCore s).port = s.port ∧
      (controlCore s).sched = s.sched ∧
      (controlCore s).emitted = s.emitted ∧
      (controlCore s).eng.omni = s.eng.omni ∧
      (controlCore s).eng.wheel = s.eng.wheel ∧
      (controlCore s).eng.bend = s.eng.bend ∧
      (controlCore s).eng.cvIn0 = s.eng.cvIn0 ∧
      (controlCore s).eng.cvIn1 = s.eng.cvIn1 ∧
      (controlCore s).eng.cvIn2 = s.eng.cvIn2 ∧
      (controlCore s).eng.cvIn3 = s.eng.cvIn3 ∧
      (controlCore s).eng.nrpnIndex = s.eng.nrpnIndex ∧
      (controlCore s).eng.noiseCtr = s.eng.noiseCtr ∧
      (controlCore s).eng.noise = s.eng.noise ∧
      (controlCore s).eng.resp = s.eng.resp ∧
      (controlCore s).ctl.extRun = s.ctl.extRun ∧
      (controlCore s).ctl.held = s.ctl.held ∧
      (controlCore s).ctl.pulseCtr = s.ctl.pulseCtr := by
  simp only [controlCore]; simp

/-! ## The audio tick -/

@[simp] theorem noiseUpdate_frame (s : State) :
    (noiseUpdate s).cfg = s.cfg ∧
      (noiseUpdate s).patch = s.patch ∧
      (noiseUpdate s).rx = s.rx ∧
      (noiseUpdate s).out = s.out ∧
      (noiseUpdate s).port = s.port ∧
      (noiseUpdate s).sched = s.sched ∧
      (noiseUpdate s).emitted = s.emitted ∧
      (noiseUpdate s).lfo1 = s.lfo1 ∧
      (noiseUpdate s).lfo2 = s.lfo2 ∧
      (noiseUpdate s).voice = s.voice ∧
      (noiseUpdate s).eng.omni = s.eng.omni ∧
      (noiseUpdate s).eng.wheel = s.eng.wheel ∧
      (noiseUpdate s).eng.bend = s.eng.bend ∧
      (noiseUpdate s).eng.cvIn0 = s.eng.cvIn0 ∧
      (noiseUpdate s).eng.cvIn1 = s.eng.cvIn1 ∧
      (noiseUpdate s).eng.cvIn2 = s.eng.cvIn2 ∧
      (noiseUpdate s).eng.cvIn3 = s.eng.cvIn3 ∧
      (noiseUpdate s).eng.nrpnIndex = s.eng.nrpnIndex ∧
      (noiseUpdate s).eng.gsrc = s.eng.gsrc ∧
      (noiseUpdate s).eng.lfoSyncSteps = s.eng.lfoSyncSteps ∧
      (noiseUpdate s).eng.resp = s.eng.resp ∧
      (noiseUpdate s).ctl = s.ctl := by
  simp only [noiseUpdate]; split <;> simp

/-- The audio tick: what it leaves alone (R460). -/
@[simp] theorem audioStep_frame (s : State) :
    ((audioStep s).1).cfg = s.cfg ∧
      ((audioStep s).1).patch = s.patch ∧
      ((audioStep s).1).rx = s.rx ∧
      ((audioStep s).1).out = s.out ∧
      ((audioStep s).1).port = s.port ∧
      ((audioStep s).1).sched = s.sched ∧
      ((audioStep s).1).emitted = s.emitted ∧
      ((audioStep s).1).lfo1 = s.lfo1 ∧
      ((audioStep s).1).lfo2 = s.lfo2 ∧
      ((audioStep s).1).eng.omni = s.eng.omni ∧
      ((audioStep s).1).eng.wheel = s.eng.wheel ∧
      ((audioStep s).1).eng.bend = s.eng.bend ∧
      ((audioStep s).1).eng.cvIn0 = s.eng.cvIn0 ∧
      ((audioStep s).1).eng.cvIn1 = s.eng.cvIn1 ∧
      ((audioStep s).1).eng.cvIn2 = s.eng.cvIn2 ∧
      ((audioStep s).1).eng.cvIn3 = s.eng.cvIn3 ∧
      ((audioStep s).1).eng.nrpnIndex = s.eng.nrpnIndex ∧
      ((audioStep s).1).eng.gsrc = s.eng.gsrc ∧
      ((audioStep s).1).eng.lfoSyncSteps = s.eng.lfoSyncSteps ∧
      ((audioStep s).1).eng.resp = s.eng.resp ∧
      ((audioStep s).1).ctl = s.ctl := by
  simp only [audioStep]; simp

/-! ## Parameters -/

@[simp] theorem recomputeEnvs_frame (s : State) :
    (recomputeEnvs s).cfg = s.cfg ∧
      (recomputeEnvs s).patch = s.patch ∧
      (recomputeEnvs s).rx = s.rx ∧
      (recomputeEnvs s).out = s.out ∧
      (recomputeEnvs s).port = s.port ∧
      (recomputeEnvs s).sched = s.sched ∧
      (recomputeEnvs s).emitted = s.emitted ∧
      (recomputeEnvs s).lfo1 = s.lfo1 ∧
      (recomputeEnvs s).lfo2 = s.lfo2 ∧
      (recomputeEnvs s).eng = s.eng ∧
      (recomputeEnvs s).ctl = s.ctl := by
  refine ⟨rfl, rfl, rfl, rfl, rfl, rfl, rfl, rfl, rfl, rfl, rfl⟩

@[simp] theorem setupOsc1_frame (s : State) :
    (setupOsc1 s).cfg = s.cfg ∧
      (setupOsc1 s).patch = s.patch ∧
      (setupOsc1 s).rx = s.rx ∧
      (setupOsc1 s).out = s.out ∧
      (setupOsc1 s).port = s.port ∧
      (setupOsc1 s).sched = s.sched ∧
      (setupOsc1 s).emitted = s.emitted ∧
      (setupOsc1 s).lfo1 = s.lfo1 ∧
      (setupOsc1 s).lfo2 = s.lfo2 ∧
      (setupOsc1 s).eng = s.eng ∧
      (setupOsc1 s).ctl = s.ctl := by
  refine ⟨rfl, rfl, rfl, rfl, rfl, rfl, rfl, rfl, rfl, rfl, rfl⟩

@[simp] theorem setupOsc2_frame (s : State) :
    (setupOsc2 s).cfg = s.cfg ∧
      (setupOsc2 s).patch = s.patch ∧
      (setupOsc2 s).rx = s.rx ∧
      (setupOsc2 s).out = s.out ∧
      (setupOsc2 s).port = s.port ∧
      (setupOsc2 s).sched = s.sched ∧
      (setupOsc2 s).emitted = s.emitted ∧
      (setupOsc2 s).lfo1 = s.lfo1 ∧
      (setupOsc2 s).lfo2 = s.lfo2 ∧
      (setupOsc2 s).eng = s.eng ∧
      (setupOsc2 s).ctl = s.ctl := by
  refine ⟨rfl, rfl, rfl, rfl, rfl, rfl, rfl, rfl, rfl, rfl, rfl⟩

@[simp] theorem updateLfo_frame (s : State) (i : LfoId) :
    (updateLfo s i).cfg = s.cfg ∧
      (updateLfo s i).patch = s.patch ∧
      (updateLfo s i).rx = s.rx ∧
      (updateLfo s i).out = s.out ∧
      (updateLfo s i).port = s.port ∧
      (updateLfo s i).sched = s.sched ∧
      (updateLfo s i).emitted = s.emitted ∧
      (updateLfo s i).voice = s.voice ∧
      (updateLfo s i).eng = s.eng ∧
      (updateLfo s i).ctl = s.ctl := by
  cases i <;> refine ⟨rfl, rfl, rfl, rfl, rfl, rfl, rfl, rfl, rfl, rfl⟩

/-- The dependent recomputation changes the voice and the LFOs only (R442). -/
@[simp] theorem recompute_frame (s : State) (i : Nat) :
    (recompute s i).cfg = s.cfg ∧
      (recompute s i).patch = s.patch ∧
      (recompute s i).rx = s.rx ∧
      (recompute s i).out = s.out ∧
      (recompute s i).port = s.port ∧
      (recompute s i).sched = s.sched ∧
      (recompute s i).emitted = s.emitted ∧
      (recompute s i).eng = s.eng ∧
      (recompute s i).ctl = s.ctl := by
  simp only [recompute]; repeat' split
  all_goals simp

@[simp] theorem recomputeAll_frame (s : State) :
    (recomputeAll s).cfg = s.cfg ∧
      (recomputeAll s).patch = s.patch ∧
      (recomputeAll s).rx = s.rx ∧
      (recomputeAll s).out = s.out ∧
      (recomputeAll s).port = s.port ∧
      (recomputeAll s).sched = s.sched ∧
      (recomputeAll s).emitted = s.emitted ∧
      (recomputeAll s).eng = s.eng ∧
      (recomputeAll s).ctl = s.ctl := by
  simp only [recomputeAll]; simp

/-- `set_parameter` changes the patch, the voice and the LFOs only (R440). -/
@[simp] theorem setParam_frame (s : State) (i : Nat) (v : Byte) :
    (setParam s i v).cfg = s.cfg ∧
      (setParam s i v).rx = s.rx ∧
      (setParam s i v).out = s.out ∧
      (setParam s i v).port = s.port ∧
      (setParam s i v).sched = s.sched ∧
      (setParam s i v).emitted = s.emitted ∧
      (setParam s i v).eng = s.eng ∧
      (setParam s i v).ctl = s.ctl := by
  simp only [setParam]; split <;> simp

/-- The patch after `set_parameter`, in or out of range (R440, R106). -/
@[simp] theorem setParam_patch (s : State) (i : Nat) (v : Byte) :
    (setParam s i v).patch =
      if i < patchSize s.cfg then Memory.write (defaultPatchByte s.cfg) s.patch i v else s.patch := by
  simp only [setParam]; split <;> simp

/-! ## Notes and controllers -/

/-- A note-on changes the held notes and the voice only (R375). -/
@[simp] theorem ctlNoteOn_frame (s : State) (n v : BitVec 7) :
    (ctlNoteOn s n v).cfg = s.cfg ∧
      (ctlNoteOn s n v).patch = s.patch ∧
      (ctlNoteOn s n v).rx = s.rx ∧
      (ctlNoteOn s n v).out = s.out ∧
      (ctlNoteOn s n v).port = s.port ∧
      (ctlNoteOn s n v).sched = s.sched ∧
      (ctlNoteOn s n v).emitted = s.emitted ∧
      (ctlNoteOn s n v).lfo1 = s.lfo1 ∧
      (ctlNoteOn s n v).lfo2 = s.lfo2 ∧
      (ctlNoteOn s n v).eng = s.eng ∧
      (ctlNoteOn s n v).ctl.running = s.ctl.running ∧
      (ctlNoteOn s n v).ctl.extRun = s.ctl.extRun ∧
      (ctlNoteOn s n v).ctl.stepIndex = s.ctl.stepIndex ∧
      (ctlNoteOn s n v).ctl.stepTimer = s.ctl.stepTimer ∧
      (ctlNoteOn s n v).ctl.arpPos = s.ctl.arpPos ∧
      (ctlNoteOn s n v).ctl.pulseCtr = s.ctl.pulseCtr ∧
      (ctlNoteOn s n v).ctl.extPending = s.ctl.extPending ∧
      (ctlNoteOn s n v).ctl.ticksSinceStep = s.ctl.ticksSinceStep ∧
      (ctlNoteOn s n v).ctl.extTps = s.ctl.extTps ∧
      (ctlNoteOn s n v).ctl.seqValue = s.ctl.seqValue ∧
      (ctlNoteOn s n v).ctl.seqGate = s.ctl.seqGate := by
  simp only [ctlNoteOn]; split <;> simp

@[simp] theorem ctlNoteOn_held (s : State) (n v : BitVec 7) : (ctlNoteOn s n v).ctl.held = heldAdd s.ctl.held n v := by
  simp only [ctlNoteOn]; split <;> simp

/-- A note-off changes the held notes and the voice only (R376). -/
@[simp] theorem ctlNoteOff_frame (s : State) (n : BitVec 7) :
    (ctlNoteOff s n).cfg = s.cfg ∧
      (ctlNoteOff s n).patch = s.patch ∧
      (ctlNoteOff s n).rx = s.rx ∧
      (ctlNoteOff s n).out = s.out ∧
      (ctlNoteOff s n).port = s.port ∧
      (ctlNoteOff s n).sched = s.sched ∧
      (ctlNoteOff s n).emitted = s.emitted ∧
      (ctlNoteOff s n).lfo1 = s.lfo1 ∧
      (ctlNoteOff s n).lfo2 = s.lfo2 ∧
      (ctlNoteOff s n).eng = s.eng ∧
      (ctlNoteOff s n).ctl.running = s.ctl.running ∧
      (ctlNoteOff s n).ctl.extRun = s.ctl.extRun ∧
      (ctlNoteOff s n).ctl.stepIndex = s.ctl.stepIndex ∧
      (ctlNoteOff s n).ctl.stepTimer = s.ctl.stepTimer ∧
      (ctlNoteOff s n).ctl.arpPos = s.ctl.arpPos ∧
      (ctlNoteOff s n).ctl.pulseCtr = s.ctl.pulseCtr ∧
      (ctlNoteOff s n).ctl.extPending = s.ctl.extPending ∧
      (ctlNoteOff s n).ctl.ticksSinceStep = s.ctl.ticksSinceStep ∧
      (ctlNoteOff s n).ctl.extTps = s.ctl.extTps ∧
      (ctlNoteOff s n).ctl.seqValue = s.ctl.seqValue ∧
      (ctlNoteOff s n).ctl.seqGate = s.ctl.seqGate := by
  simp only [ctlNoteOff]; repeat' split
  all_goals simp

/-- A CONTROL_CHANGE changes the wheel or the NRPN index, or what a parameter write changes (R427). -/
@[simp] theorem controlChangeBody_frame (k v : BitVec 7) (s : State) :
    (controlChangeBody k v s).cfg = s.cfg ∧
      (controlChangeBody k v s).rx = s.rx ∧
      (controlChangeBody k v s).out = s.out ∧
      (controlChangeBody k v s).port = s.port ∧
      (controlChangeBody k v s).sched = s.sched ∧
      (controlChangeBody k v s).emitted = s.emitted ∧
      (controlChangeBody k v s).eng.omni = s.eng.omni ∧
      (controlChangeBody k v s).eng.bend = s.eng.bend ∧
      (controlChangeBody k v s).eng.cvIn0 = s.eng.cvIn0 ∧
      (controlChangeBody k v s).eng.cvIn1 = s.eng.cvIn1 ∧
      (controlChangeBody k v s).eng.cvIn2 = s.eng.cvIn2 ∧
      (controlChangeBody k v s).eng.cvIn3 = s.eng.cvIn3 ∧
      (controlChangeBody k v s).eng.rng = s.eng.rng ∧
      (controlChangeBody k v s).eng.noiseCtr = s.eng.noiseCtr ∧
      (controlChangeBody k v s).eng.noise = s.eng.noise ∧
      (controlChangeBody k v s).eng.gsrc = s.eng.gsrc ∧
      (controlChangeBody k v s).eng.lfoSyncSteps = s.eng.lfoSyncSteps ∧
      (controlChangeBody k v s).eng.resp = s.eng.resp ∧
      (controlChangeBody k v s).ctl = s.ctl := by
  simp only [controlChangeBody]; split <;> simp

/-! ## The consumer -/

/-- A consumer step changes the ring buffer's contents, its own registers and the record of what it sent (R557). -/
@[simp] theorem consumerTick_frame (s : State) :
    (consumerTick s).cfg = s.cfg ∧
      (consumerTick s).patch = s.patch ∧
      (consumerTick s).rx = s.rx ∧
      (consumerTick s).port = s.port ∧
      (consumerTick s).sched = s.sched ∧
      (consumerTick s).lfo1 = s.lfo1 ∧
      (consumerTick s).lfo2 = s.lfo2 ∧
      (consumerTick s).voice = s.voice ∧
      (consumerTick s).eng = s.eng ∧
      (consumerTick s).ctl = s.ctl ∧
      (consumerTick s).out.cvCutoff = s.out.cvCutoff ∧
      (consumerTick s).out.cvResonance = s.out.cvResonance ∧
      (consumerTick s).out.cvAmplitude = s.out.cvAmplitude := by
  simp only [consumerTick, Output.popSample, Output.drivePins]; split <;> simp

@[simp] theorem preemptBy_frame (l : List Agent) (s : State) :
    (preemptBy l s).cfg = s.cfg ∧
      (preemptBy l s).patch = s.patch ∧
      (preemptBy l s).rx = s.rx ∧
      (preemptBy l s).port = s.port ∧
      (preemptBy l s).lfo1 = s.lfo1 ∧
      (preemptBy l s).lfo2 = s.lfo2 ∧
      (preemptBy l s).voice = s.voice ∧
      (preemptBy l s).eng = s.eng ∧
      (preemptBy l s).ctl = s.ctl ∧
      (preemptBy l s).out.cvCutoff = s.out.cvCutoff ∧
      (preemptBy l s).out.cvResonance = s.out.cvResonance ∧
      (preemptBy l s).out.cvAmplitude = s.out.cvAmplitude := by
  induction l generalizing s with
  | nil => refine ⟨rfl, rfl, rfl, rfl, rfl, rfl, rfl, rfl, rfl, rfl, rfl, rfl⟩
  | cons a l ih =>
    cases a with
    | host => refine ⟨rfl, rfl, rfl, rfl, rfl, rfl, rfl, rfl, rfl, rfl, rfl, rfl⟩
    | consumer => simp only [preemptBy, ih]; simp

/-- An interleaving point changes what consumer steps change, and the schedule. -/
@[simp] theorem preempt_frame (s : State) :
    (preempt s).cfg = s.cfg ∧
      (preempt s).patch = s.patch ∧
      (preempt s).rx = s.rx ∧
      (preempt s).port = s.port ∧
      (preempt s).lfo1 = s.lfo1 ∧
      (preempt s).lfo2 = s.lfo2 ∧
      (preempt s).voice = s.voice ∧
      (preempt s).eng = s.eng ∧
      (preempt s).ctl = s.ctl ∧
      (preempt s).out.cvCutoff = s.out.cvCutoff ∧
      (preempt s).out.cvResonance = s.out.cvResonance ∧
      (preempt s).out.cvAmplitude = s.out.cvAmplitude := by
  exact preemptBy_frame s.sched s

/-- With no consumer step at the head of the schedule, an interleaving point takes the host's turn off it and does nothing
else. -/
theorem preempt_of_hostIsNext (s : State) (h : s.sched = [] ∨ ∃ r, s.sched = .host :: r) :
    preempt s = { s with sched := s.sched.tail } := by
  unfold preempt
  rcases h with h | ⟨r, h⟩ <;> rw [h] <;> rfl

end Sys2Proof.Machine
end

