-- ==== Sys2Proof/Laws/Control.lean ====
section
/-! SUPPORT. What a control tick gives, once: the output-register writes with their interleaving points, the voice after its
tick, the matrix sums, and the controller after a step boundary. -/

namespace Sys2Proof.Machine

/-! ## Readings that depend on the patch only -/

theorem readPatch_eq_of_patch {s t : State} (hc : t.cfg = s.cfg) (hp : t.patch = s.patch) : readPatch t = readPatch s := by
  funext a; unfold readPatch; rw [hc, hp]

theorem arpMode_eq_of_patch {s t : State} (hc : t.cfg = s.cfg) (hp : t.patch = s.patch) : arpMode t = arpMode s := by
  unfold arpMode seqArpMode; rw [readPatch_eq_of_patch hc hp, hc]

theorem extClock_eq_of_patch {s t : State} (hc : t.cfg = s.cfg) (hp : t.patch = s.patch) : extClock t = extClock s := by
  unfold extClock seqTempo; rw [readPatch_eq_of_patch hc hp, hc]

theorem patternLen_eq_of_patch {s t : State} (hc : t.cfg = s.cfg) (hp : t.patch = s.patch) : patternLen t = patternLen s := by
  unfold patternLen seqLength; rw [readPatch_eq_of_patch hc hp, hc]

theorem stepOn_eq_of_patch {s t : State} (hc : t.cfg = s.cfg) (hp : t.patch = s.patch) : stepOn t = stepOn s := by
  funext k; unfold stepOn seqPattern; rw [readPatch_eq_of_patch hc hp, hc]

theorem stepValue_eq_of_patch {s t : State} (hc : t.cfg = s.cfg) (hp : t.patch = s.patch) : stepValue t = stepValue s := by
  funext k; unfold stepValue; rw [readPatch_eq_of_patch hc hp, hc]

theorem stepDuration_eq_of_patch {s t : State} (hc : t.cfg = s.cfg) (hp : t.patch = s.patch) :
    stepDuration t = stepDuration s := by
  funext k; unfold stepDuration seqTempo seqSwing; rw [readPatch_eq_of_patch hc hp, hc]

theorem lfoIncrement_eq_of_patch {s t : State} (hc : t.cfg = s.cfg) (hp : t.patch = s.patch) (hk : t.ctl = s.ctl) :
    lfoIncrement t = lfoIncrement s := by
  funext i
  unfold lfoIncrement isSynced lfoRateOf tps extClock seqTempo
  rw [readPatch_eq_of_patch hc hp, hc, hk]

/-! ## Numbers -/

theorem low7_eq_mod (b : Byte) : low7 b = b.toNat % 128 := by
  unfold low7; simp [BitVec.extractLsb'_toNat]

theorem top8_toNat (x : BitVec 14) : (top8 x).toNat = x.toNat / 64 := by
  unfold top8
  have := x.isLt
  simp [BitVec.extractLsb'_toNat, Nat.shiftRight_eq_div_pow]
  omega

theorem env8_toNat (e : Envelope) : e.env8.toNat = e.value.toNat / 64 := top8_toNat e.value

theorem clip14_toNat (x : Int) : ((clip14 x).toNat : Int) = max 0 (min 16383 x) := by
  unfold clip14 clip; rw [BitVec.toNat_ofInt]; omega

theorem storeS16_toInt (r : Reg16) (x : Int) (h : fitsS16 x) : (storeS16 r x).toInt = x := by
  unfold fitsS16 at h
  unfold storeS16; rw [if_pos h, BitVec.toInt_ofInt, Int.bmod_eq_of_le] <;> norm_num <;> omega

/-! ## The matrix -/

theorem dests_get_set {α : Type} (t : Dests α) (d e : Dest) (x : α) : (t.set d x).get e = if e = d then x else t.get e := by
  cases d <;> cases e <;> rfl

theorem dests_get_map {α β : Type} (f : α → β) (t : Dests α) (d : Dest) : (t.map f).get d = f (t.get d) := by cases d <;> rfl

/-- One slot adds its term to the destination it names and leaves the others (R320). -/
theorem applySlot_acc (s : State) (m : Matrix) (d : Dest) (i : Nat) :
    (applySlot s m i).acc.get d = m.acc.get d + slotTerm s d i := by
  unfold applySlot slotTerm
  by_cases h0 : slotAmount s i = 0
  · simp [h0]
  · simp only [h0, if_false]
    cases slotTarget s i with
    | additive e =>
      simp only [Matrix.additive, dests_get_set]
      by_cases he : d = e
      · subst he; simp [h0, additiveAmount, shr]
      · have he' : ¬ e = d := fun h => he h.symm
        simp [he, he']
    | vca => simp
    | reserved => simp

theorem applySlot_foldl_acc (s : State) (d : Dest) (l : List Nat) (m : Matrix) :
    (l.foldl (applySlot s) m).acc.get d = m.acc.get d + (l.map (slotTerm s d)).sum := by
  induction l generalizing m with
  | nil => simp
  | cons a l ih => simp only [List.foldl_cons, ih, applySlot_acc, List.map_cons, List.sum_cons]; omega

/-- Every additive accumulator of the matrix is the sum of its terms (R318 to R326). -/
theorem matrixOf_acc (s : State) (d : Dest) : (matrixOf s).acc.get d = destSum s d := by
  have hh : ∀ m : Matrix, (hardcoded s m).acc.get d = m.acc.get d + hardcodedTerm s d := by
    intro m
    cases d <;> simp [hardcoded, hardcodedTerm, Dests.get, env8_toNat]
    omega
  unfold matrixOf destSum applySlots
  rw [hh, applySlot_foldl_acc]
  congr 2

/-- The matrix depends on the patch, the source tables and the first envelope only. -/
theorem matrixOf_congr {s t : State} (hc : t.cfg = s.cfg) (hp : t.patch = s.patch) (hg : t.eng.gsrc = s.eng.gsrc)
    (hv : t.voice.vsrc = s.voice.vsrc) (he : t.voice.env1 = s.voice.env1) : matrixOf t = matrixOf s := by
  have hr := readPatch_eq_of_patch hc hp
  have e1 : sourceValue t = sourceValue s := by funext x; unfold sourceValue; cases x <;> simp only [hg, hv]
  have e2 : applySlot t = applySlot s := by
    funext m i
    unfold applySlot slotAmount slotSource slotTarget; simp only [hr, hc, hg, e1]
  have e3 : ∀ m, hardcoded t m = hardcoded s m := by intro m; unfold hardcoded; rw [hr, hg, he]
  have e4 : initialMatrix t = initialMatrix s := by unfold initialMatrix scaled7; rw [hr]
  unfold matrixOf applySlots
  rw [e2, e3, e4, hc]

/-! ## The voice's control tick -/

theorem glide_eq (v : Voice) : v.glide = { v with pitch := v.glide.pitch, glideInc := v.glide.glideInc } := by
  unfold Voice.glide; split
  · rfl
  · split <;> rfl

theorem startGlide_eq (v : Voice) (k : Nat) (d : Bool) :
    v.startGlide k d = { v with pitch := (v.startGlide k d).pitch, glideInc := (v.startGlide k d).glideInc } := by
  unfold Voice.startGlide; split
  · rfl
  · simp only; split <;> rfl

theorem startEnvelopes_eq (v : Voice) (l : Bool) :
    v.startEnvelopes l = { v with
      env1 := (v.startEnvelopes l).env1
      env2 := (v.startEnvelopes l).env2
      retriggered := (v.startEnvelopes l).retriggered } := by
  unfold Voice.startEnvelopes; split <;> rfl

theorem glide_renderEnvelopes (v : Voice) :
    v.renderEnvelopes.glide.pitch = v.glide.pitch ∧ v.renderEnvelopes.glide.glideInc = v.glide.glideInc := by
  unfold Voice.glide Voice.renderEnvelopes
  simp only
  split
  · exact ⟨rfl, rfl⟩
  · split <;> exact ⟨rfl, rfl⟩

/-- `Control()` of the voice is steps (3) to (6) on the state whose voice has run steps (1) and (2) (R313). -/
theorem voiceControl_eq (s : State) :
    voiceControl s = updateOscs (resolveMatrix (s.setVoice s.voice.renderEnvelopes.glide.refreshSources)) := rfl

theorem updateOscs_voice (s : State) :
    (updateOscs s).voice = { s.voice with
      osc1 := (updateOscs s).voice.osc1, osc2 := (updateOscs s).voice.osc2, sub := (updateOscs s).voice.sub } := rfl

theorem resolveMatrix_voice (s : State) :
    (resolveMatrix s).voice = { s.voice with dst := (resolveMatrix s).voice.dst, vca := (resolveMatrix s).voice.vca } := rfl

/-! ## The output-register writes -/

/-- An interleaving point leaves all but the output side, the schedule and the record of outputs (R525). -/
theorem preempt_eq (s : State) :
    preempt s = { s with out := (preempt s).out, sched := (preempt s).sched, emitted := (preempt s).emitted } := by
  have := preempt_frame s
  generalize preempt s = p at *
  obtain ⟨a1, a2, a3, a4, a5, a6, a7, a8, a9, a10, a11, a12⟩ := p
  simp only [State.mk.injEq] at *
  simp_all

theorem outputs_eq_of_voice {s t : State} (h : t.voice = s.voice) :
    outCutoff t = outCutoff s ∧ outResonance t = outResonance s ∧ outAmplitude t = outAmplitude s := by
  unfold outCutoff outResonance outAmplitude; rw [h]; exact ⟨rfl, rfl, rfl⟩

theorem cvWrites_eq (s : State) :
    runSubSteps cvWrites s = { s with
      out := (runSubSteps cvWrites s).out
      sched := (runSubSteps cvWrites s).sched
      emitted := (runSubSteps cvWrites s).emitted } := by
  have key : ∀ (k : SubStep) (u : State), k ∈ cvWrites →
      runSubStep k (preempt u) = { u with
        out := (runSubStep k (preempt u)).out
        sched := (runSubStep k (preempt u)).sched
        emitted := (runSubStep k (preempt u)).emitted } := by
    intro k u hk
    simp [cvWrites] at hk
    rcases hk with rfl | rfl | rfl <;> (rw [preempt_eq u]; rfl)
  simp only [cvWrites, runSubSteps]
  have k1 := key .cutoff s (by decide)
  generalize runSubStep .cutoff (preempt s) = u at *
  have k2 := key .resonance u (by decide)
  generalize runSubStep .resonance (preempt u) = v at *
  have k3 := key .amplitude v (by decide)
  generalize runSubStep .amplitude (preempt v) = w at *
  rw [k3, k2, k1]

/-- The three output registers after the writes, whatever consumer steps fall between them (R533). -/
theorem cvWrites_out (s : State) :
    (runSubSteps cvWrites s).out.cvCutoff = outCutoff s ∧
      (runSubSteps cvWrites s).out.cvResonance = outResonance s ∧
      (runSubSteps cvWrites s).out.cvAmplitude = outAmplitude s := by
  simp only [cvWrites, runSubSteps, runSubStep]
  have o1 := outputs_eq_of_voice (s := s) (t := preempt s) (by simp)
  generalize preempt s = p1 at *
  have c2 : (p1.setOut { p1.out with cvCutoff := outCutoff p1 }).out.cvCutoff = outCutoff p1 := rfl
  have o2 := outputs_eq_of_voice (s := p1) (t := p1.setOut { p1.out with cvCutoff := outCutoff p1 }) rfl
  generalize p1.setOut { p1.out with cvCutoff := outCutoff p1 } = p2 at *
  have o3 := outputs_eq_of_voice (s := p2) (t := preempt p2) (by simp)
  have c3 : (preempt p2).out.cvCutoff = p2.out.cvCutoff := by simp
  generalize preempt p2 = p3 at *
  have c4 : (p3.setOut { p3.out with cvResonance := outResonance p3 }).out.cvCutoff = p3.out.cvCutoff := rfl
  have r4 : (p3.setOut { p3.out with cvResonance := outResonance p3 }).out.cvResonance = outResonance p3 := rfl
  have o4 := outputs_eq_of_voice (s := p3) (t := p3.setOut { p3.out with cvResonance := outResonance p3 }) rfl
  generalize p3.setOut { p3.out with cvResonance := outResonance p3 } = p4 at *
  have o5 := outputs_eq_of_voice (s := p4) (t := preempt p4) (by simp)
  have c5 : (preempt p4).out.cvCutoff = p4.out.cvCutoff := by simp
  have r5 : (preempt p4).out.cvResonance = p4.out.cvResonance := by simp
  generalize preempt p4 = p5 at *
  refine ⟨?_, ?_, ?_⟩
  · show p5.out.cvCutoff = _
    rw [c5, c4, c3, c2, o1.1]
  · show p5.out.cvResonance = _
    rw [r5, r4, o3.2.1, o2.2.1, o1.2.1]
  · show outAmplitude p5 = _
    rw [o5.2.2, o4.2.2, o3.2.2, o2.2.2, o1.2.2]

/-! ## Step boundaries -/

theorem doStep_ctl (s : State) :
    (doStep s).ctl.seqValue = BitVec.setWidth 8 (stepValue s (currentStep s)) <<< 4 ∧
      (doStep s).ctl.seqGate = (if stepOn s (currentStep s) then 255 else 0) ∧
      (doStep s).ctl.stepIndex = BitVec.ofNat 4 ((currentStep s + 1) % patternLen s) := by
  unfold doStep
  simp only [setCtl_ctl]
  split
  · simp only [arpStep_frame]; exact ⟨rfl, rfl, trivial⟩
  · exact ⟨rfl, rfl, trivial⟩

/-- A step leaves the voice alone in non-arpeggiated mode, and with no note held (R380). -/
theorem doStep_voice_of_no_arp (s : State) (h : arpMode s = .off ∨ s.ctl.held = []) : (doStep s).voice = s.voice := by
  unfold doStep; simp only [setCtl_voice]
  split
  · rename_i hh
    simp at hh
    rcases h with h | h
    · exact absurd h hh.1.1
    · exact absurd h hh.2
  · rfl

/-- A step that the rhythm sounds, in an arpeggiator mode with notes held, plays the arpeggiator (R380, R381). -/
theorem doStep_voice_of_arp (s : State) (h1 : arpMode s ≠ .off) (h2 : stepOn s (currentStep s) = true)
    (h3 : s.ctl.held ≠ []) :
    (doStep s).voice = (arpStep (setSeqSources s (currentStep s))).voice ∧
      (doStep s).ctl.arpPos = (arpStep (setSeqSources s (currentStep s))).ctl.arpPos := by
  have cond : (decide (arpMode s ≠ .off) && stepOn s (currentStep s) && !s.ctl.held.isEmpty) = true := by
    cases hq : s.ctl.held <;> simp_all
  unfold doStep; simp only [setCtl_voice, setCtl_ctl]
  rw [if_pos cond]; exact ⟨rfl, rfl⟩

/-! ## What a control tick of the controller does, read from the state before it -/

theorem byte_pos_iff (x : Byte) : 0 < x.toNat ↔ x ≠ 0 := by
  rw [Nat.pos_iff_ne_zero, ne_eq, ne_eq, ← BitVec.toNat_inj]; rfl

theorem held_isEmpty_eq (l : List HeldNote) : l.isEmpty = !decide (l ≠ []) := by cases l <;> simp

theorem settled_ctl_eq (s : State) : (settled s).ctl = (s.ctl.follow (wantRunning s)).countTick := rfl

/-- The step-boundary flag of a control tick (R378). -/
theorem boundaryDue_settled (s : State) : boundaryDue (extClock s) (settled s).ctl = stepBoundary s := by
  rw [settled_ctl_eq]
  unfold stepBoundary boundaryDue wantRunning extClock seqTempo
  unfold Controller.follow Controller.countTick Controller.enter Controller.leave
  by_cases hx : (readPatch s (offSeq s.cfg)).toNat = 0
  · cases hr : s.ctl.running <;> cases he : s.ctl.extRun <;> simp [hx, hr, byte_pos_iff]
  · cases hr : s.ctl.running <;> cases hl : s.ctl.held <;> simp [hx, hr]

theorem ctlControl_snd (s : State) : (ctlControl s).2 = stepBoundary s := boundaryDue_settled s

theorem settled_running (s : State) : (settled s).ctl.running = wantRunning s := by
  rw [settled_ctl_eq]
  unfold Controller.follow Controller.countTick Controller.enter Controller.leave
  cases hr : s.ctl.running <;> cases hw : wantRunning s <;> simp [hr]

theorem wantRunning_of_boundary {s : State} (h : stepBoundary s = true) : wantRunning s = true := by
  have h' := boundaryDue_settled s
  rw [h] at h'
  unfold boundaryDue at h'
  rw [← settled_running]
  simp only [Bool.and_eq_true] at h'
  exact h'.1

/-- A boundary plays `boundaryStep` (R371, R380), and the traversal starts again on entry (R371). -/
theorem settled_position {s : State} (h : stepBoundary s = true) :
    currentStep (settled s) = boundaryStep s ∧
      (settled s).ctl.arpPos.toNat = (if s.ctl.running then s.ctl.arpPos.toNat else 0) ∧
      (settled s).ctl.held = s.ctl.held := by
  have hw := wantRunning_of_boundary h
  have hp : patternLen (settled s) = max 1 (min 16 (readPatch s (offSeq s.cfg + 5)).toNat) := by
    rw [patternLen_eq_of_patch (s := s) (by simp) (by simp)]; unfold patternLen seqLength; omega
  unfold currentStep boundaryStep
  rw [hp, settled_ctl_eq, hw]
  unfold Controller.follow Controller.countTick Controller.enter
  cases hr : s.ctl.running <;> simp

/-- A tick that plays no arpeggio note leaves the voice and the generator alone (R378, R380). -/
theorem ctlControl_of_no_note {s : State} (h : arpNoteDue s = false) :
    (ctlControl s).1.voice = s.voice ∧ (ctlControl s).1.eng.rng = s.eng.rng := by
  unfold ctlControl
  simp only [boundaryDue_settled, countDown_frame]
  cases hb : stepBoundary s with
  | false => simp
  | true =>
    obtain ⟨hk, -, hh⟩ := settled_position hb
    have hx : extClock (settled s) = extClock s := extClock_eq_of_patch (by simp) (by simp)
    have hdo : ∀ u : State, u.cfg = s.cfg → u.patch = s.patch → u.ctl.held = s.ctl.held → currentStep u = boundaryStep s →
        (doStep u).voice = u.voice ∧ (doStep u).eng.rng = u.eng.rng := by
      intro u h1 h2 h3 h4
      have hc : (decide (arpMode u ≠ .off) && stepOn u (currentStep u) && !u.ctl.held.isEmpty) = false := by
        rw [arpMode_eq_of_patch h1 h2, stepOn_eq_of_patch h1 h2, h3, h4, held_isEmpty_eq, Bool.not_not]
        rw [← h]; unfold arpNoteDue stepOn seqPattern; rw [hb]
        simp only [Bool.true_and, Bool.and_assoc]
        congr 1; exact Bool.and_comm _ _
      unfold doStep
      simp only [setCtl_voice, setCtl_eng]
      rw [if_neg (by rw [hc]; decide)]
      exact ⟨rfl, rfl⟩
    have hp : (playStep (settled s)).voice = s.voice ∧ (playStep (settled s)).eng.rng = s.eng.rng := by
      unfold playStep
      have := hdo ((settled s).setCtl ((settled s).ctl.takeBoundary (extClock (settled s)))) (by simp) (by simp)
        (by rw [← hh]; simp only [setCtl_ctl]; unfold Controller.takeBoundary; split <;> rfl)
        (by rw [← hk]; unfold currentStep; simp only [setCtl_ctl]; unfold Controller.takeBoundary; split <;> rfl)
      rw [this.1, this.2]; simp
    simp only [if_true]
    unfold boundary
    split
    · exact hp
    · simp only [loadTimer_frame]; exact hp

/-- A tick that plays an arpeggio note runs `arp_step()` on a state with the same patch, held notes, voice and generator, and
the traversal position of `settled_position` (R378, R380, R381). -/
theorem ctlControl_of_note {s : State} (h : arpNoteDue s = true) :
    ∃ w : State, w.cfg = s.cfg ∧ w.patch = s.patch ∧ w.ctl.held = s.ctl.held ∧ w.voice = s.voice ∧ w.eng.rng = s.eng.rng ∧
      w.ctl.arpPos.toNat = (if s.ctl.running then s.ctl.arpPos.toNat else 0) ∧
      (ctlControl s).1.voice = (arpStep w).voice ∧ (ctlControl s).1.eng.rng = (arpStep w).eng.rng ∧
      (ctlControl s).1.ctl.arpPos = (arpStep w).ctl.arpPos := by
  have hb : stepBoundary s = true := by unfold arpNoteDue at h; simp only [Bool.and_eq_true] at h; exact h.1.1.1
  obtain ⟨hk, ha, hh⟩ := settled_position hb
  generalize hv : (settled s).setCtl ((settled s).ctl.takeBoundary (extClock (settled s))) = v
  have v1 : v.cfg = s.cfg := by rw [← hv]; simp
  have v2 : v.patch = s.patch := by rw [← hv]; simp
  have v3 : v.ctl.held = s.ctl.held := by
    rw [← hh, ← hv]; simp only [setCtl_ctl]; unfold Controller.takeBoundary; split <;> rfl
  have v4 : currentStep v = boundaryStep s := by
    rw [← hk, ← hv]; unfold currentStep; simp only [setCtl_ctl]; unfold Controller.takeBoundary; split <;> rfl
  have v5 : v.ctl.arpPos = (settled s).ctl.arpPos := by
    rw [← hv]; simp only [setCtl_ctl]; unfold Controller.takeBoundary; split <;> rfl
  have v6 : v.voice = s.voice ∧ v.eng = s.eng := by rw [← hv]; simp
  have hc : (decide (arpMode v ≠ .off) && stepOn v (currentStep v) && !v.ctl.held.isEmpty) = true := by
    rw [arpMode_eq_of_patch v1 v2, stepOn_eq_of_patch v1 v2, v3, v4, held_isEmpty_eq, Bool.not_not]
    rw [← h]; unfold arpNoteDue stepOn seqPattern; rw [hb]
    simp only [Bool.true_and, Bool.and_assoc]
    congr 1; exact Bool.and_comm _ _
  have hd : (doStep v).voice = (arpStep (setSeqSources v (currentStep v))).voice ∧
      (doStep v).eng = (arpStep (setSeqSources v (currentStep v))).eng ∧
      (doStep v).ctl.arpPos = (arpStep (setSeqSources v (currentStep v))).ctl.arpPos := by
    unfold doStep; simp only [setCtl_voice, setCtl_ctl, setCtl_eng]; rw [if_pos hc]; exact ⟨rfl, rfl, rfl⟩
  have hbd : (boundary (settled s)).voice = (doStep v).voice ∧ (boundary (settled s)).eng = (doStep v).eng ∧
      (boundary (settled s)).ctl.arpPos = (doStep v).ctl.arpPos := by
    unfold boundary playStep; rw [hv]; split
    · exact ⟨rfl, rfl, rfl⟩
    · simp
  refine ⟨setSeqSources v (currentStep v), v1, v2, v3, v6.1, congrArg Engine.rng v6.2, ?_, ?_, ?_, ?_⟩
  · rw [← ha, ← v5]; rfl
  all_goals
    unfold ctlControl
    simp only [boundaryDue_settled, countDown_frame, hb, if_true]
    first
      | rw [hbd.1, hd.1]
      | rw [hbd.2.1, hd.2.1]
      | rw [hbd.2.2, hd.2.2]

/-! ## The arpeggiator's order -/

theorem insertByNote_perm (h : HeldNote) (l : List HeldNote) : (insertByNote h l).Perm (h :: l) := by
  induction l with
  | nil => exact List.Perm.refl _
  | cons g r ih =>
    unfold insertByNote; split
    · exact List.Perm.refl _
    · exact (List.Perm.cons g ih).trans (List.Perm.swap h g r)

theorem sortedHeld_perm (l : List HeldNote) : (sortedHeld l).Perm l := by
  induction l with
  | nil => exact List.Perm.refl _
  | cons h r ih => exact (insertByNote_perm h _).trans (List.Perm.cons h ih)

/-- The traversal plays an element of the ascending sequence (R385). -/
theorem arpIndex_lt (m : ArpMode) (len pos : Nat) (r : Half) (h : 0 < len) : (arpIndex m len pos r).1 < len := by
  unfold arpIndex
  have := Nat.mod_lt pos h
  cases m <;> simp only
  · exact this
  · exact this
  · omega
  · have hp : 0 < max 1 (2 * len - 2) := by omega
    have := Nat.mod_lt pos hp
    split <;> omega
  · exact Nat.mod_lt _ h

end Sys2Proof.Machine
end

