-- ==== Sys2Proof/Laws/HostView.lean ====
section
/-! SUPPORT. The operations of the host's commands on the host's part of the state (`State.hostView`): each commutes with
taking that part, and a consumer step leaves it alone (R112, R557). -/

namespace Sys2Proof.Machine

theorem hostView_ite {p q : Prop} [Decidable p] [Decidable q] (hpq : p ↔ q) {a b a' b' : State} (h1 : a' = a.hostView)
    (h2 : b' = b.hostView) :
    (if p then a' else b') = (if q then a else b).hostView := by
  by_cases h : q
  · rw [if_pos h, if_pos (hpq.mpr h), h1]
  · rw [if_neg h, if_neg (fun x => h (hpq.mp x)), h2]

theorem hostView_step {a b : State} (f g : State → State) (h : b = a.hostView) (hf : ∀ x, f x.hostView = (g x).hostView) :
    f b = (g a).hostView := by rw [h, hf]

theorem arpStep_hostView (s : State) : arpStep s.hostView = (arpStep s).hostView := rfl

theorem doStep_hostView (s : State) : doStep s.hostView = (doStep s).hostView := by
  unfold doStep
  exact hostView_step (fun x => x.setCtl { x.ctl with stepIndex := _ }) (fun x => x.setCtl { x.ctl with stepIndex := _ })
    (hostView_ite Iff.rfl rfl rfl) (fun x => rfl)

theorem setCtl_hostView (s : State) (c) : s.hostView.setCtl c = (s.setCtl c).hostView := rfl

theorem extClock_hostView (s : State) : extClock s.hostView = extClock s := by cases s; rfl

theorem ctl_hostView (s : State) : s.hostView.ctl = s.ctl := by cases s; rfl

theorem playStep_hostView (s : State) : playStep s.hostView = (playStep s).hostView := by
  unfold playStep; rw [← doStep_hostView]; exact congrArg doStep rfl

theorem stepDuration_hostView (s : State) (k) : stepDuration s.hostView k = stepDuration s k := by
  unfold stepDuration
  have e1 : ticksPerStep s.hostView.cfg (seqTempo s.hostView) = ticksPerStep s.cfg (seqTempo s) := congrArg _ rfl
  have e2 : seqSwing s.hostView = seqSwing s := rfl
  rw [e1, e2]

theorem currentStep_hostView (s : State) : currentStep s.hostView = currentStep s := rfl

theorem boundary_hostView (s : State) : boundary s.hostView = (boundary s).hostView := by
  unfold boundary; rw [playStep_hostView, stepDuration_hostView, currentStep_hostView]; exact hostView_ite Iff.rfl rfl rfl

theorem countDown_hostView (s : State) : countDown s.hostView = (countDown s).hostView := hostView_ite Iff.rfl rfl rfl

theorem settled_hostView (s : State) : settled s.hostView = (settled s).hostView := rfl

theorem ctlControl_hostView (s : State) : (ctlControl s.hostView).1 = (ctlControl s).1.hostView := by
  show countDown _ = (countDown _).hostView
  rw [← countDown_hostView]; congr 1
  exact hostView_ite Iff.rfl (by rw [settled_hostView, boundary_hostView]) rfl

theorem ctlControl_flag_hostView (s : State) : (ctlControl s.hostView).2 = (ctlControl s).2 := rfl

theorem driftStep_hostView (s : State) : driftStep s.hostView = (driftStep s).hostView := by
  unfold driftStep
  exact hostView_ite Iff.rfl rfl (hostView_ite Iff.rfl rfl rfl)

theorem controllerTick_hostView (s : State) : controllerTick s.hostView = (controllerTick s).hostView := by
  have h1 := ctlControl_hostView s
  have h2 := ctlControl_flag_hostView s
  show (if (ctlControl s.hostView).2 = true then driftStep (ctlControl s.hostView).1 else (ctlControl s.hostView).1) =
    (if (ctlControl s).2 = true then driftStep (ctlControl s).1 else (ctlControl s).1).hostView
  rw [h1, h2]
  generalize ctlControl s = q
  exact hostView_ite Iff.rfl (driftStep_hostView _) rfl

theorem advanceLfos_hostView (s : State) : advanceLfos s.hostView = (advanceLfos s).hostView := rfl

theorem drawRandom_hostView (s : State) : drawRandom s.hostView = (drawRandom s).hostView := rfl

theorem refreshSources_hostView (s : State) : refreshSources s.hostView = (refreshSources s).hostView := rfl

theorem matrixOf_hostView (s : State) : matrixOf s.hostView = matrixOf s := by
  have h1 : initialMatrix s.hostView = initialMatrix s := rfl
  have h2 : applySlot s.hostView = applySlot s := rfl
  have h3 : ∀ m, applySlots s.hostView m = applySlots s m := fun m => by unfold applySlots; rw [h2]; rfl
  have h4 : ∀ m, hardcoded s.hostView m = hardcoded s m := fun m => rfl
  unfold matrixOf; rw [h1, h3, h4]

theorem resolveMatrix_hostView (s : State) : resolveMatrix s.hostView = (resolveMatrix s).hostView := by
  unfold resolveMatrix; rw [matrixOf_hostView]; rfl

theorem pitch1_hostView (s : State) : pitch1 s.hostView = pitch1 s := rfl

theorem pitch2_hostView (s : State) : pitch2 s.hostView = pitch2 s := rfl

theorem pitch3_hostView (s : State) : pitch3 s.hostView = pitch3 s := rfl

theorem updateOscs_hostView (s : State) : updateOscs s.hostView = (updateOscs s).hostView := by
  unfold updateOscs; rw [pitch1_hostView, pitch2_hostView, pitch3_hostView]; rfl

theorem voiceControl_hostView (s : State) : voiceControl s.hostView = (voiceControl s).hostView := by
  unfold voiceControl; rw [← updateOscs_hostView, ← resolveMatrix_hostView]; rfl

theorem controlCore_hostView (s : State) : controlCore s.hostView = (controlCore s).hostView := by
  simp only [controlCore, advanceLfos_hostView, controllerTick_hostView, drawRandom_hostView, refreshSources_hostView,
    voiceControl_hostView]

theorem noiseUpdate_hostView (s : State) : noiseUpdate s.hostView = (noiseUpdate s).hostView := hostView_ite Iff.rfl rfl rfl

theorem voiceAudio_hostView (s : State) : voiceAudio s.hostView = ((voiceAudio s).1.hostView, (voiceAudio s).2) := by
  unfold voiceAudio
  by_cases h : s.voice.dead = true
  · have h2 : s.hostView.voice.dead = true := h
    rw [if_pos h, if_pos h2]
  · have h2 : ¬ s.hostView.voice.dead = true := h
    rw [if_neg h, if_neg h2]; rfl

theorem audioStep_hostView (s : State) : audioStep s.hostView = ((audioStep s).1.hostView, (audioStep s).2) := by
  simp only [audioStep, noiseUpdate_hostView, voiceAudio_hostView]

theorem hostView_consumerTick (s : State) : (consumerTick s).hostView = s.hostView := by
  simp only [State.hostView, consumerTick, Output.popSample, Output.drivePins]; split <;> rfl

theorem hostView_preemptBy (l : List Agent) (s : State) : (preemptBy l s).hostView = s.hostView := by
  induction l generalizing s with
  | nil => rfl
  | cons a l ih => cases a with
    | host => rfl
    | consumer => simp only [preemptBy, ih, hostView_consumerTick]

theorem hostView_hostView (s : State) : State.hostView s.hostView = s.hostView := rfl

theorem hostView_runSubStep (k : SubStep) (s : State) : (runSubStep k s.hostView).hostView = (runSubStep k s).hostView := by
  cases k with
  | core => simp only [runSubStep, controlCore_hostView, hostView_hostView]
  | sample => simp only [runSubStep, audioStep_hostView]; rfl
  | _ => rfl

theorem hostView_runSubStep_congr {k : SubStep} {s t : State} (h : s.hostView = t.hostView) :
    (runSubStep k s).hostView = (runSubStep k t).hostView := by
  rw [← hostView_runSubStep, h, hostView_runSubStep]

theorem hostView_runSubSteps_congr (l : List SubStep) :
    ∀ {s t : State}, s.hostView = t.hostView → (runSubSteps l s).hostView = (runSubSteps l t).hostView := by
  induction l with
  | nil => intro s t h; exact h
  | cons k l ih =>
    intro s t h
    exact ih (hostView_runSubStep_congr (by rw [preempt, preempt, hostView_preemptBy, hostView_preemptBy, h]))

theorem hostView_fields {s t : State} (h : s.hostView = t.hostView) :
    s.cfg = t.cfg ∧ s.patch = t.patch ∧ s.eng = t.eng ∧ s.lfo1 = t.lfo1 ∧ s.lfo2 = t.lfo2 ∧ s.voice = t.voice ∧
      s.ctl = t.ctl ∧ s.rx = t.rx ∧ s.port = t.port ∧ s.out.cvCutoff = t.out.cvCutoff ∧
      s.out.cvResonance = t.out.cvResonance ∧ s.out.cvAmplitude = t.out.cvAmplitude := by
  simp only [State.hostView, State.mk.injEq, Output.mk.injEq] at h
  tauto

end Sys2Proof.Machine
end

