-- ==== Sys2Proof/Laws/PerInstr.lean ====
section
/-! SUPPORT. The families of statements that are made of every command: one lemma per constructor of `Instr`. -/

namespace Sys2Proof.Laws.Opcode

open Sys2Proof

/-- R143, R147: the assembler's word of a command carries the command's opcode in bits 31:24 and has no other bit set than
those its format names. -/
def Statement (i : Instr) : Prop := wordOp (encode i) = i.opcode ∧ encode i &&& i.namedBits = encode i

theorem nop : Statement .nop := by unfold Statement; decide

theorem noteOn (ch : BitVec 4) (k v : BitVec 7) : Statement (.noteOn ch k v) := by
  constructor <;>
    (apply BitVec.eq_of_getLsbD_eq
     intro i hi
     simp only [Instr.opcode, Instr.namedBits, encode, wordOp, BitVec.getLsbD_append, BitVec.getLsbD_extractLsb', BitVec.getLsbD_and]
     interval_cases i <;> simp)

theorem noteOff (ch : BitVec 4) (k v : BitVec 7) : Statement (.noteOff ch k v) := by
  constructor <;>
    (apply BitVec.eq_of_getLsbD_eq
     intro i hi
     simp only [Instr.opcode, Instr.namedBits, encode, wordOp, BitVec.getLsbD_append, BitVec.getLsbD_extractLsb', BitVec.getLsbD_and]
     interval_cases i <;> simp)

theorem controlChange (ch : BitVec 4) (k v : BitVec 7) : Statement (.controlChange ch k v) := by
  constructor <;>
    (apply BitVec.eq_of_getLsbD_eq
     intro i hi
     simp only [Instr.opcode, Instr.namedBits, encode, wordOp, BitVec.getLsbD_append, BitVec.getLsbD_extractLsb', BitVec.getLsbD_and]
     interval_cases i <;> simp)

theorem pitchBend (ch : BitVec 4) (v14 : BitVec 14) : Statement (.pitchBend ch v14) := by
  constructor <;>
    (apply BitVec.eq_of_getLsbD_eq
     intro i hi
     simp only [Instr.opcode, Instr.namedBits, encode, wordOp, BitVec.getLsbD_append, BitVec.getLsbD_extractLsb', BitVec.getLsbD_and]
     interval_cases i <;> simp)

theorem allSoundOff (ch : BitVec 4) : Statement (.allSoundOff ch) := by
  constructor <;>
    (apply BitVec.eq_of_getLsbD_eq
     intro i hi
     simp only [Instr.opcode, Instr.namedBits, encode, wordOp, BitVec.getLsbD_append, BitVec.getLsbD_extractLsb', BitVec.getLsbD_and]
     interval_cases i <;> simp)

theorem allNotesOff (ch : BitVec 4) : Statement (.allNotesOff ch) := by
  constructor <;>
    (apply BitVec.eq_of_getLsbD_eq
     intro i hi
     simp only [Instr.opcode, Instr.namedBits, encode, wordOp, BitVec.getLsbD_append, BitVec.getLsbD_extractLsb', BitVec.getLsbD_and]
     interval_cases i <;> simp)

theorem resetAllControllers (ch : BitVec 4) : Statement (.resetAllControllers ch) := by
  constructor <;>
    (apply BitVec.eq_of_getLsbD_eq
     intro i hi
     simp only [Instr.opcode, Instr.namedBits, encode, wordOp, BitVec.getLsbD_append, BitVec.getLsbD_extractLsb', BitVec.getLsbD_and]
     interval_cases i <;> simp)

theorem omniModeOn (ch : BitVec 4) : Statement (.omniModeOn ch) := by
  constructor <;>
    (apply BitVec.eq_of_getLsbD_eq
     intro i hi
     simp only [Instr.opcode, Instr.namedBits, encode, wordOp, BitVec.getLsbD_append, BitVec.getLsbD_extractLsb', BitVec.getLsbD_and]
     interval_cases i <;> simp)

theorem omniModeOff (ch : BitVec 4) : Statement (.omniModeOff ch) := by
  constructor <;>
    (apply BitVec.eq_of_getLsbD_eq
     intro i hi
     simp only [Instr.opcode, Instr.namedBits, encode, wordOp, BitVec.getLsbD_append, BitVec.getLsbD_extractLsb', BitVec.getLsbD_and]
     interval_cases i <;> simp)

theorem sysexStart : Statement .sysexStart := by unfold Statement; decide

theorem sysexByte (b : Byte) : Statement (.sysexByte b) := by
  constructor <;>
    (apply BitVec.eq_of_getLsbD_eq
     intro i hi
     simp only [Instr.opcode, Instr.namedBits, encode, wordOp, BitVec.getLsbD_append, BitVec.getLsbD_extractLsb', BitVec.getLsbD_and]
     interval_cases i <;> simp)

theorem sysexEnd : Statement .sysexEnd := by unfold Statement; decide

theorem setParameter (idx : Half) (val : Byte) : Statement (.setParameter idx val) := by
  constructor <;>
    (apply BitVec.eq_of_getLsbD_eq
     intro i hi
     simp only [Instr.opcode, Instr.namedBits, encode, wordOp, BitVec.getLsbD_append, BitVec.getLsbD_extractLsb', BitVec.getLsbD_and]
     interval_cases i <;> simp)

theorem getParameter (idx : Half) : Statement (.getParameter idx) := by
  constructor <;>
    (apply BitVec.eq_of_getLsbD_eq
     intro i hi
     simp only [Instr.opcode, Instr.namedBits, encode, wordOp, BitVec.getLsbD_append, BitVec.getLsbD_extractLsb', BitVec.getLsbD_and]
     interval_cases i <;> simp)

theorem clock : Statement .clock := by unfold Statement; decide

theorem start : Statement .start := by unfold Statement; decide

theorem stop : Statement .stop := by unfold Statement; decide

theorem control : Statement .control := by unfold Statement; decide

theorem audio : Statement .audio := by unfold Statement; decide

theorem renderBlock : Statement .renderBlock := by unfold Statement; decide

theorem setCvInput (n val : Byte) : Statement (.setCvInput n val) := by
  constructor <;>
    (apply BitVec.eq_of_getLsbD_eq
     intro i hi
     simp only [Instr.opcode, Instr.namedBits, encode, wordOp, BitVec.getLsbD_append, BitVec.getLsbD_extractLsb', BitVec.getLsbD_and]
     interval_cases i <;> simp)

end Sys2Proof.Laws.Opcode
end

