-- ==== Sys2Proof/Tests/Slice0.lean ====
section
/-! SUPPORT. The model's own tests: command words written out from 30_encoding.md, the refusals of R8, single steps with the
values of 95_test_vectors.md (its configuration is that of `State.reset`, but for NUM_OSC_ALGS and COSTLY_ALG, which no test
here rests on), and for every obligation with hypotheses a witness that meets them. -/

namespace Sys2Proof.Tests

open Sys2Proof Sys2Proof.Machine

/-- Whether an outcome is a next state with a property. -/
def answers (o : Host.Outcome State Fault Refusal) (p : State → Bool) : Bool :=
  match o with
  | .next t => p t
  | .fault _ => false
  | .refused _ => false

/-- Whether an outcome is the refusal of an ill-formed configuration. -/
def illFormed (o : Host.Outcome State Fault Refusal) : Bool :=
  match o with
  | .next _ => false
  | .fault _ => false
  | .refused r => decide (r = .illFormedConfiguration)

/-! ## Encoding (R140 to R146; the words of 95 §2.1) -/

theorem test_decode_note_commands :
    decode 0x01003C64 = .ok (.noteOn 0 60 100) ∧ decode 0x01F3BCE4 = .ok (.noteOn 3 60 100) ∧
      decode 0x02003C00 = .ok (.noteOff 0 60 0) ∧ decode 0x03004A40 = .ok (.controlChange 0 74 64) := by decide

theorem test_decode_pitch_bend :
    decode 0x04003FFF = .ok (.pitchBend 0 16383) ∧ decode 0x04FFFFFF = .ok (.pitchBend 15 16383) ∧
      decode 0x04002000 = .ok (.pitchBend 0 8192) := by decide

theorem test_decode_channel_modes :
    decode 0x05000000 = .ok (.allSoundOff 0) ∧ decode 0x06010000 = .ok (.allNotesOff 1) ∧
      decode 0x07020000 = .ok (.resetAllControllers 2) ∧ decode 0x080F0000 = .ok (.omniModeOn 15) ∧
      decode 0x09000000 = .ok (.omniModeOff 0) := by decide

theorem test_decode_sysex :
    decode 0x0A000000 = .ok .sysexStart ∧ decode 0x0B0000F7 = .ok (.sysexByte 0xF7) ∧ decode 0x0C000000 = .ok .sysexEnd := by
  decide

theorem test_decode_parameters :
    decode 0x0D123456 = .ok (.setParameter 0x1234 0x56) ∧ decode 0x0E004C00 = .ok (.getParameter 76) ∧
      decode 0x15020080 = .ok (.setCvInput 2 128) := by decide

theorem test_decode_no_operand :
    decode 0x00FFFFFF = .ok .nop ∧ decode 0x0F000000 = .ok .clock ∧ decode 0x10000000 = .ok .start ∧
      decode 0x11000000 = .ok .stop ∧ decode 0x12000000 = .ok .control ∧ decode 0x13000000 = .ok .audio ∧
      decode 0x14000000 = .ok .renderBlock := by decide

theorem test_decode_reserved :
    decode 0x16FFFFFF = .reject (.reserved 0x16) ∧ decode 0xFF123456 = .reject (.reserved 0xFF) ∧
      (decodeBytes [0x01, 0x00, 0x3C]).1 = .reject .truncated := by decide

/-- The words of the programs of 95 §3. -/
theorem test_encode_program_words :
    encode (.noteOn 0 60 100) = 0x01003C64 ∧ encode (.controlChange 1 73 74) = 0x0301494A ∧
      encode (.setParameter 31 0xAE) = 0x0D001FAE ∧ encode (.getParameter 128) = 0x0E008000 ∧
      encode (.sysexByte 0x7D) = 0x0B00007D ∧ encode .renderBlock = 0x14000000 := by decide

theorem test_decode_table_word :
    decodeTableWord 32 0x15020080 = some (.setCvInput 2 128) ∧ decodeTableWord 32 0x16000000 = none := by decide

theorem test_assembly_lines :
    parseLine "CC 0, 99, 0             ; 0x03006300".toList = some [.controlChange 0 99 0] ∧
      parseLine "SET 31, 0xAE".toList = some [.setParameter 31 0xAE] ∧
      parseLine "TICK 2".toList = some [.control, .audio, .audio] ∧ parseLine "NOTE_ON 16, 60, 100".toList = none ∧
      parseLine "SET 3 1, 64".toList = none := by decide

/-! ## Ill-formed configurations (R8) -/

/-- `State.reset` with another configuration. -/
def withConfig (c : Config) : State := State.resetOf c

theorem test_refuses_block_size_0 : illFormed (step (withConfig { defaultConfig with blockSize := 0 })) = true := by decide
theorem test_refuses_small_ring : illFormed (step (withConfig { defaultConfig with ringSize := 3 })) = true := by decide
theorem test_refuses_no_slots : illFormed (step (withConfig { defaultConfig with numModSlots := 0 })) = true := by decide
theorem test_refuses_clocks_0 : illFormed (step (withConfig { defaultConfig with clocksPerStep := 0 })) = true := by decide
theorem test_refuses_noise_decim_0 : illFormed (step (withConfig { defaultConfig with noiseDecim := 0 })) = true := by decide
theorem test_refuses_header_byte : illFormed (step (withConfig { defaultConfig with sysexHeader := [0x7D, 0x80] })) = true := by
  decide
theorem test_accepts_reset_config : illFormed (step State.reset) = false ∧ defaultConfig.wf = true := by decide

/-! ## Small states -/

/-- `State.reset` with one patch byte written (R442's recomputation included). -/
def patched (i : Nat) (v : Byte) (s : State) : State := setParam s i v

/-- The state after `NOTE_ON 0, 60, 100`: note 60 held and the voice live, both envelopes in ATTACK at 0. -/
def live : State :=
  { State.reset with
    voice := { State.reset.voice with
      note := 60
      velocity := 100
      gate := true
      dead := false
      retriggered := true
      env1 := { State.reset.voice.env1 with stage := .attack }
      env2 := { State.reset.voice.env2 with stage := .attack } }
    ctl := { State.reset.ctl with held := [⟨60, 100⟩] } }

/-- `live` with 64 held after 60, at pitch 8192 (95 §2.5). -/
def live2 : State :=
  { live with
    voice := { live.voice with note := 64, pitch := 8192, target := 8192 }
    ctl := { live.ctl with held := [⟨60, 100⟩, ⟨64, 100⟩] } }

/-- A receiver in DATA at the start of the data (95 §2.9). -/
def receiving : State := { State.reset with rx := { State.reset.rx with state := .data } }

/-- A complete transfer of the patch of zeros. -/
def received : State := { State.reset with rx := { State.reset.rx with state := .data, pos := 156 } }

/-- A ring buffer with given samples. -/
def ringOf (r : List Byte) : State := { State.reset with out := { State.reset.out with ring := r } }

/-! ## Single steps -/

theorem test_nop : exec .nop live = .next live := rfl
theorem test_reserved_word_is_nop : runWord 0x16FFFFFF live = .next live := rfl

theorem test_note_on_triggers :
    answers (exec (.noteOn 0 60 100) State.reset) (fun t =>
      decide (t.voice = live.voice ∧ t.ctl = live.ctl)) = true := by decide
theorem test_note_on_velocity_0_releases :
    answers (exec (.noteOn 0 60 0) live) (fun t => decide (t.ctl.held = [] ∧ t.voice.gate = false)) = true := by decide

/-- 95 §2.5: NOTE_OFF 64 with 60 still held and portamento 4. -/
theorem test_note_off_returns_legato :
    answers (exec (.noteOff 0 64 0) (patched 29 4 live2)) (fun t =>
      decide (t.voice.target.toInt = 7680 ∧ t.voice.glideInc.toInt = -128 ∧ t.voice.pitch.toInt = 8192)) = true := by decide
theorem test_note_off_of_a_note_not_held : exec (.noteOff 0 61 0) live = .next live := rfl

theorem test_control_change_cutoff :
    answers (exec (.controlChange 0 74 64) State.reset) (fun t => decide (readPatch t 11 = 64)) = true := by decide
theorem test_control_change_other_channel : exec (.controlChange 1 1 64) State.reset = .next State.reset := rfl

theorem test_pitch_bend : answers (exec (.pitchBend 0 16383) State.reset) (fun t => decide (t.eng.bend = 16383)) = true := by
  decide

theorem test_all_sound_off :
    answers (exec (.allSoundOff 0) live) (fun t => decide (t.voice.dead = true ∧ t.voice.env2.stage = .dead)) = true := by decide
theorem test_all_notes_off :
    answers (exec (.allNotesOff 0) live2) (fun t =>
      decide (t.ctl.held = [] ∧ t.voice.env1.stage = .release ∧ t.voice.gate = false)) = true := by decide
theorem test_reset_all_controllers :
    answers (exec (.resetAllControllers 0) { State.reset with eng := { State.reset.eng with wheel := 5, bend := 1 } })
      (fun t => decide (t.eng = State.reset.eng ∧ t.patch = [])) = true := by decide
theorem test_omni_mode_on : answers (exec (.omniModeOn 0) State.reset) (fun t => accept t 9) = true := by decide
theorem test_omni_mode_off : answers (exec (.omniModeOff 0) State.reset) (fun t => !accept t 9) = true := by decide

theorem test_sysex_start_restarts :
    answers (exec .sysexStart received) (fun t => decide (t.rx.state = .header ∧ t.rx.pos = 0 ∧ t.rx.sum = 0)) = true := by decide

/-- 95 §2.9: in DATA at position 1 with high nibble 0, the byte 0x01. -/
theorem test_sysex_byte_pairs_nibbles :
    answers (exec (.sysexByte 0x01) { receiving with rx := { receiving.rx with pos := 1 } })
      (fun t => decide (readRx t 0 = 1 ∧ t.rx.sum = 1 ∧ t.rx.pos = 2)) = true := by decide
theorem test_sysex_byte_not_a_nibble :
    answers (exec (.sysexByte 0x10) receiving) (fun t => decide (t.rx.state = .error)) = true := by decide
theorem test_sysex_end_commits :
    answers (exec .sysexEnd received) (fun t => decide (t.rx.state = .success ∧ readPatch t 11 = 0 ∧ readPatch t 76 = 0)) = true := by
  decide
theorem test_sysex_end_wrong_sum :
    answers (exec .sysexEnd { received with rx := { received.rx with cks := 1 } })
      (fun t => decide (t.rx.state = .error ∧ readPatch t 11 = 0x7F)) = true := by decide

/-- 95 §2.8: LFO1_RATE 3 at tempo 120. -/
theorem test_set_parameter_lfo_rate :
    answers (exec (.setParameter 24 3) State.reset) (fun t => decide (t.lfo1.inc = 1365 ∧ t.lfo2.inc = 64)) = true := by decide
theorem test_set_parameter_beyond_the_patch : exec (.setParameter 77 0x41) State.reset = .next State.reset := rfl
theorem test_get_parameter_last : answers (exec (.getParameter 76) State.reset) (fun t => decide (t.eng.resp = 0x20)) = true := by
  decide
theorem test_get_parameter_beyond : answers (exec (.getParameter 77) State.reset) (fun t => decide (t.eng.resp = 0xFF)) = true := by
  decide

/-- The external clock running, with five pulses counted. -/
def external : State :=
  { patched 55 0 State.reset with ctl := { State.reset.ctl with extRun := true, pulseCtr := 5 } }

theorem test_clock_sixth_pulse :
    answers (exec .clock external) (fun t => decide (t.ctl.pulseCtr = 0 ∧ t.ctl.extPending = 1)) = true := by decide
theorem test_clock_internal : exec .clock live = .next live := rfl
theorem test_start : answers (exec .start State.reset) (fun t => decide (t.ctl.extRun = true ∧ t.ctl.extPending = 1)) = true := by
  decide
theorem test_stop : answers (exec .stop external) (fun t => decide (t.ctl.extRun = false ∧ t.ctl.extPending = 0)) = true := by
  decide

/-- 95 §2.8, §2.11: the first CONTROL after reset. -/
theorem test_control_after_reset :
    answers (exec .control State.reset) (fun t =>
      decide (t.eng.rng = 0xE270 ∧ t.eng.gsrc.random = 112 ∧ t.out.cvCutoff = 254 ∧ t.out.cvAmplitude = 0 ∧
        t.lfo1.phase = 64 ∧ t.voice.vca = 255)) = true := by decide

/-- 95 §3.5, program P5. -/
theorem test_control_matrix :
    answers (exec .control (patched 34 10 (patched 32 64 (patched 31 0xAE live)))) (fun t =>
      decide (t.voice.dst.cutoff = 14976 ∧ t.voice.vca = 227 ∧ t.out.cvCutoff = 234 ∧ t.out.cvAmplitude = 227 ∧
        t.voice.osc1.inc = 256 ∧ t.voice.sub.inc = 128)) = true := by decide +kernel

/-- 95 §2.8: the second AUDIO after reset draws the noise. -/
theorem test_audio_noise :
    answers (exec .audio { State.reset with eng := { State.reset.eng with noiseCtr := 1 } }) (fun t =>
      decide (t.eng.resp = 128 ∧ t.eng.noiseCtr = 0 ∧ t.eng.rng = 0xE270 ∧ t.eng.noise = 112)) = true := by decide

/-- 95 §2.5: RING of two saws at phases 0x0000 and 0xFF00. -/
theorem test_audio_ring :
    answers (exec .audio (patched 4 1 (patched 3 2
      { live with voice := { live.voice with osc2 := { live.voice.osc2 with phase := 0xFF00 } } })))
      (fun t => decide (t.eng.resp = 1)) = true := by decide

/-- 95 §3.1: block 1 of P1. -/
theorem test_render_block :
    answers (exec .renderBlock live) (fun t =>
      decide (t.out.ring = [0, 1, 2, 3] ∧ t.out.cvAmplitude = 255 ∧ t.eng.rng = 0x389C ∧ t.voice.osc1.phase = 1024 ∧
        t.ctl.stepTimer = 11)) = true := by decide +kernel
theorem test_render_block_skipped : exec .renderBlock (ringOf [1, 2, 3, 4, 5]) = .next (ringOf [1, 2, 3, 4, 5]) := rfl

theorem test_set_cv_input :
    answers (exec (.setCvInput 2 119) State.reset) (fun t => decide (t.eng.cvIn2 = 119 ∧ t.eng.cvIn1 = 0)) = true := by decide
theorem test_set_cv_input_7 : exec (.setCvInput 7 0x11) State.reset = .next State.reset := rfl

/-- 95 §2.10: an underrun, and a pop. -/
theorem test_consumer_underrun :
    (consumerTick { State.reset with out := { State.reset.out with glitchCount := 7, audioOut := 3, displayTick := 255 } }).out =
      { State.reset.out with glitchCount := 8, audioOut := 3, displayTick := 0 } := by decide
theorem test_consumer_pop : (consumerTick (ringOf [4, 5])).out.ring = [5] ∧ (consumerTick (ringOf [4, 5])).out.audioOut = 4 := by
  decide

theorem test_step_runs_the_fetched_word :
    answers (step (State.reset.withFetchWord 32 0x01003C64)) (fun t =>
      decide (t.voice = live.voice ∧ t.ctl = live.ctl ∧ t.port = [])) = true := by decide

theorem test_reset_stores_are_canonical :
    Memory.wf (defaultPatchByte State.reset.cfg) (patchSize State.reset.cfg) State.reset.patch = true ∧
      Memory.wf rxDefaultByte (patchSize State.reset.cfg) State.reset.rx.buf = true := by decide

/-! ## Units (95 §1.4, §1.6, §2.2 to §2.5) -/

theorem test_envelope_renders :
    (Envelope.renders 4 ⟨.attack, 0, 4096, 2048, 4096, 8192⟩) = ⟨.decay, 16383, 4096, 2048, 4096, 8192⟩ ∧
      (Envelope.renders 4 ⟨.decay, 16383, 4096, 2048, 4096, 8192⟩) = ⟨.sustain, 8192, 4096, 2048, 4096, 8192⟩ := by decide

theorem test_pitch_increments :
    pitchIncrement defaultConfig 0 = 8 ∧ pitchIncrement defaultConfig 7680 = 256 ∧ pitchIncrement defaultConfig 13823 = 2815 ∧
      pitchIncrement defaultConfig 15359 = 5631 ∧ fold defaultConfig 16000 = 14464 ∧ fold defaultConfig (-100) = 1436 := by decide +kernel

theorem test_vca_rows :
    vcaCombine 0 255 55 64 false = 155 ∧ vcaCombine 0 255 200 (-64) false = 155 ∧ vcaCombine 0 255 0 127 false = 1 ∧
      vcaCombine 0 255 255 (-128) false = 0 ∧ vcaCombine 128 255 200 64 true = 241 := by decide

/-- R40, R245: an id of NUM_OSC_ALGS or NUM_LFO_WAVES or more renders 128, also below 4. -/
theorem test_ids_beyond_the_catalog :
    wave { defaultConfig with numOscAlgs := 2 } 3 0x4000 0 = 128 ∧ wave { defaultConfig with numOscAlgs := 2 } 1 0x4000 0 = 64 ∧
      ({ phase := 0x4000, inc := 0, wave := 3, sh := 7 } : Lfo).render { defaultConfig with numLfoWaves := 2 } = 128 ∧
      ({ phase := 0x4000, inc := 0, wave := 1, sh := 7 } : Lfo).render { defaultConfig with numLfoWaves := 2 } = 64 := by decide

theorem test_mixing : xfade 0 255 128 = 127 ∧ ringMod 0 0 = 255 ∧ ringMod 200 100 = 112 ∧ xorByte 0xF0 0x20 0x10 = 0xC0 := by decide

/-! ## Witnesses: a state and operands that meet the hypotheses of each obligation, clause by clause -/

theorem reset_accepts : accept State.reset 0 = true := by decide
theorem reset_stores_ok : State.reset.storesOk := ⟨by decide, by decide⟩

theorem witness_IgnoredBitsChangeNothing :
    decode 0x01F3BCE4 = .ok (.noteOn 3 60 100) ∧
      (0x01F3BCE4 : Word) &&& (Instr.noteOn 3 60 100).namedBits = 0x01033C64 &&& (Instr.noteOn 3 60 100).namedBits ∧
      (wordOp 0x15FFFFFF).toNat ≤ 0x15 := by decide

theorem witness_ReservedOpcodesExecuteAsNop :
    0x16 ≤ (wordOp 0x16FFFFFF).toNat ∧ 0x16 ≤ (wordOp 0xFF123456).toNat := by decide

/-- A state that presents a NOTE_ON, then a reserved word. -/
def presenting : State := { State.reset with port := [0x01003C64, 0x16000000] }

theorem witness_StepRunsTheNextCommand :
    presenting.cfg.wf = true ∧ presenting.hostIsNext ∧ presenting.port = 0x01003C64 :: [0x16000000] ∧
      decode 0x01003C64 = .ok (.noteOn 0 60 100) := ⟨by decide, .inl rfl, rfl, by decide⟩
theorem witness_StepRunsTheNextCommand_reserved :
    ({ presenting with port := [0x16000000], sched := [.host, .consumer] } : State).hostIsNext ∧
      0x16 ≤ (wordOp 0x16000000).toNat := ⟨.inr ⟨[.consumer], rfl⟩, by decide⟩
theorem witness_StepRunsTheNextCommand_waits : State.reset.hostIsNext ∧ State.reset.port = [] := ⟨.inl rfl, rfl⟩
theorem witness_StepRunsTheNextCommand_consumer :
    ({ presenting with sched := [.consumer, .host] } : State).sched = .consumer :: [.host] := rfl

theorem witness_NoCommandStopsTheBlock : State.reset.cfg.wf = true := by decide

theorem witness_OnlyTwoCommandsWriteResp :
    exec .stop State.reset = .next (ctlStop State.reset) ∧ Instr.stop ≠ .audio ∧ ∀ idx, Instr.stop ≠ .getParameter idx :=
  ⟨rfl, by decide, fun _ => by simp⟩

theorem witness_OnlyParameterPathsWriteThePatch :
    exec (.setParameter 0 5) State.reset = .next (setParam State.reset 0 5) ∧ (setParam State.reset 0 5).patch ≠ State.reset.patch :=
  ⟨rfl, by decide⟩
theorem witness_OnlyParameterPathsWriteThePatch_transfer :
    exec .sysexEnd received = .next (sysexEndBody received) ∧ (sysexEndBody received).patch ≠ received.patch := ⟨rfl, by decide⟩

theorem witness_EachAgentWritesItsOwnRegisters :
    .consumer ∉ live.sched ∧ exec .nop live = .next live := ⟨by decide, rfl⟩

theorem witness_ConsumerStepDrainsOneSample : (ringOf [4, 5]).out.ring = 4 :: [5] ∧ State.reset.out.ring = [] := ⟨rfl, rfl⟩

theorem witness_HostEffectsDoNotDependOnTheConsumer :
    live.hostView = (consumerTick live).hostView ∧ live ≠ consumerTick live ∧
      roomForBlock live = roomForBlock (consumerTick live) ∧ (∃ t, exec .renderBlock live = .next t) ∧
      ∃ t, exec .renderBlock (consumerTick live) = .next t :=
  ⟨rfl, fun h => absurd (congrArg (fun s => s.out.displayTick) h) (by decide), by decide, ⟨_, rfl⟩, ⟨_, rfl⟩⟩

theorem witness_ResetMeetsTheInvariant : defaultConfig.wf = true := by decide

theorem live_inv : live.Inv where
  stores := ⟨by decide, by decide⟩
  ring := by unfold State.ringOk; decide
  held := ⟨by decide, by decide⟩
  counters := ⟨by decide, by decide, by decide⟩
  voice := ⟨⟨by decide, by decide, by decide, by decide⟩, ⟨by decide, by decide, by decide, by decide⟩, by decide, by decide,
    by decide⟩

theorem live_caches : live.CachesCoherent where
  osc1 := by decide
  osc2 := by decide
  env1 := ⟨by decide, by decide, by decide, by decide⟩
  env2 := ⟨by decide, by decide, by decide, by decide⟩
  lfo1 := ⟨by decide, by decide⟩
  lfo2 := ⟨by decide, by decide⟩

theorem witness_EveryStepKeepsTheInvariant : live.Inv ∧ ∃ t, step live = .next t := ⟨live_inv, _, rfl⟩
theorem witness_EveryStepKeepsTheCachesCoherent : live.Inv ∧ live.CachesCoherent ∧ ∃ t, step live = .next t :=
  ⟨live_inv, live_caches, _, rfl⟩

theorem witness_DefaultPatchAfterReset : defaultConfig.numModSlots = 12 := rfl

theorem witness_SetParameterStoresAndRecomputes :
    State.reset.storesOk ∧ patchSize State.reset.cfg ≤ (77 : Half).toNat ∧ (76 : Half).toNat < patchSize State.reset.cfg :=
  ⟨reset_stores_ok, by decide, by decide⟩

theorem witness_LfoIncrementFollowsTheRate :
    16 ≤ (readPatch State.reset (offLfoRate .lfo1)).toNat ∧
      (readPatch (patched 26 15 State.reset) (offLfoRate .lfo2)).toNat < 16 := by decide

theorem witness_UnacceptedChannelCommandsChangeNothing :
    channelOf (.pitchBend 1 0) = some 1 ∧ accept State.reset 1 = false := by decide

theorem witness_ControlChangeMapsControllers :
    accept State.reset 0 = true ∧ (0 : BitVec 7) ∉ ([1, 5, 6, 71, 72, 73, 74, 98, 99] : List (BitVec 7)) := by decide

theorem witness_NrpnWritesTheAddressedByte :
    accept State.reset 0 = true ∧ State.reset.storesOk ∧ accept (setParam State.reset 76 1) 0 = true :=
  ⟨by decide, reset_stores_ok, by decide⟩

theorem witness_EngineRegisterCommands : accept State.reset 0 = true ∧ 4 ≤ (4 : Byte).toNat := by decide

theorem witness_AllSoundOffSilencesTheVoice : accept live 0 = true ∧ extClock live = false := by decide
theorem witness_AllNotesOffReleasesTheVoice : accept live 0 = true := by decide

theorem witness_TriggerSetsPitchGlideAndEnvelopes :
    fitsS16 ((64 : Byte).toNat * 128 + scaleOffset live.cfg (readPatch live 28).toNat ((64 : Byte).toNat % 12)) ∧
      live.voice.dead = false ∧ State.reset.voice.dead = true ∧ portaTicks live.cfg (readPatch live 29).toNat = 0 :=
  ⟨by unfold fitsS16; decide, rfl, rfl, by decide⟩
/-- Portamento 4 on a live voice at pitch 7680: to note 60 (d = 0) and to note 64 (d = 512). -/
theorem witness_TriggerSetsPitchGlideAndEnvelopes_glide :
    portaTicks (patched 29 4 live).cfg (readPatch (patched 29 4 live) 29).toNat = 4 ∧
      (60 : Int) * 128 - (patched 29 4 live).voice.pitch.toInt = 0 ∧
      (64 : Int) * 128 - (patched 29 4 live).voice.pitch.toInt = 512 ∧ fitsS16 ((512 : Int).tdiv 4) :=
  ⟨by decide, by decide, by decide, by unfold fitsS16; decide⟩

/-- Sixteen notes held. -/
def full : State :=
  { live with ctl := { live.ctl with held := (List.range 16).map (fun n => ⟨BitVec.ofNat 7 (60 + n), 100⟩) } }

/-- More notes held than HELD_CAP, which no run reaches. -/
def overfull : State :=
  { live with ctl := { live.ctl with held := (List.range 17).map (fun n => ⟨BitVec.ofNat 7 (60 + n), 100⟩) } }

theorem witness_NoteOnHoldsAndTriggers :
    accept full 0 = true ∧ (100 : BitVec 7) ≠ 0 ∧ (∀ h ∈ full.ctl.held, h.note ≠ 10) ∧ full.ctl.held.length = 16 ∧
      16 ≤ (overfull.ctl.held.filter (fun h => h.note ≠ 60)).length := by decide
theorem witness_NoteOnHoldsAndTriggers_room :
    accept live 0 = true ∧ (live.ctl.held.filter (fun h => h.note ≠ 60)).length < 16 ∧ arpMode live = .off ∧
      arpMode (patched 56 1 live) ≠ .off := by decide

theorem witness_NoteOffReleasesOrReturns :
    accept live 0 = true ∧ (∀ h ∈ live.ctl.held, h.note ≠ 61) ∧ (∃ h ∈ live.ctl.held, h.note = 60) ∧
      live.ctl.held.filter (fun h => h.note ≠ 60) = [] ∧
      live2.ctl.held.filter (fun h => h.note ≠ 64) = [] ++ [⟨60, 100⟩] ∧ ∃ h ∈ live2.ctl.held, h.note = 64 := by decide

theorem witness_ClockStartAndStop :
    ¬ (extClock live = true ∧ live.ctl.extRun = true) ∧ extClock external = true ∧ external.ctl.extRun = true ∧
      external.cfg.clocksPerStep ≤ external.ctl.pulseCtr + 1 ∧
      ({ external with ctl := { external.ctl with pulseCtr := 4 } } : State).ctl.pulseCtr + 1 < external.cfg.clocksPerStep := by
  decide

theorem witness_ClocksPerStepClocksMakeOneStepDue :
    let s : State := { external with ctl := { external.ctl with pulseCtr := 0 } }
    extClock s = true ∧ s.ctl.extRun = true ∧ s.ctl.pulseCtr = 0 ∧ 1 ≤ s.cfg.clocksPerStep := by decide

theorem witness_ZeroAmountSlotsHaveNoEffect :
    State.reset.storesOk ∧ 11 < State.reset.cfg.numModSlots ∧ readPatch State.reset (offAmount 11) = 0 :=
  ⟨reset_stores_ok, by decide, by decide⟩

theorem witness_VcaGainIsBoundedAndMirrored :
    (-127 : Int) ≤ -127 ∧ (-127 : Int) ≤ -1 ∧ (-127 : Int) ≤ -1 ∧ (-1 : Int) ≤ -1 := by decide

theorem witness_FoldLandsInTheTableRange :
    (0 : Int) ≤ 0 ∧ (0 : Int) ≤ (defaultConfig.tableBase : Int) + 1535 ∧ (-1 : Int) < 0 ∧
      (defaultConfig.tableBase : Int) + 1535 < 15360 := by decide

theorem witness_PitchIncrementFoldsByOctaves :
    (0 : Int) ≤ 12287 ∧ (12287 : Int) ≤ (defaultConfig.tableBase : Int) + 1535 ∧ (12287 : Int) + 1536 < defaultConfig.tableBase ∧
      (12288 : Int) < defaultConfig.tableBase ∧ (defaultConfig.tableBase : Int) ≤ 12288 + 1536 := by decide

theorem witness_GlideMovesAndSnaps :
    let v : Voice := { live.voice with target := 7808, glideInc := 128 }
    ((0 < v.glideInc.toInt ∧ v.target.toInt ≤ v.pitch.toInt + v.glideInc.toInt) ∧
      ¬ ((0 < live.voice.glideInc.toInt ∧ live.voice.target.toInt ≤ live.voice.pitch.toInt + live.voice.glideInc.toInt) ∨
        (live.voice.glideInc.toInt < 0 ∧ live.voice.pitch.toInt + live.voice.glideInc.toInt ≤ live.voice.target.toInt))) := by
  decide

theorem witness_EnvelopeStagesEndOnTime :
    live.voice.env1.stage = .attack ∧ 1 ≤ live.voice.env1.incA ∧
      (voiceRelease live).voice.env1.stage = .release ∧ 1 ≤ (voiceRelease live).voice.env1.incR ∧
      live.voice.env1.render.stage = .decay ∧ live.voice.env1.sus.toNat ≤ live.voice.env1.render.value.toNat ∧
      State.reset.voice.env1.stage = .dead := by decide
/-- A DECAY below its sustain level, which rises, and one at it. -/
theorem witness_EnvelopeStagesEndOnTime_rising :
    let e : Envelope := ⟨.decay, 4096, 4096, 2048, 4096, 8192⟩
    e.stage = .decay ∧ e.value.toNat ≤ e.sus.toNat ∧ e.render.value = 6144 ∧ (Envelope.renders 2 e).stage = .sustain := by decide

/-- Two notes held in an arpeggiator mode, at a step boundary. -/
def arpeggio (mode : Byte) : State :=
  { patched 56 mode live2 with ctl := { live2.ctl with running := true, stepTimer := 0 } }

/-- `arpeggio` under the external clock, with a step pending. -/
def externalArpeggio : State :=
  { patched 55 0 (arpeggio 1) with ctl := { live2.ctl with running := true, stepTimer := 0, extRun := true, extPending := 1 } }

/-- With the arpeggiator off, and in an arpeggiator mode between two boundaries. -/
theorem witness_ControlRendersEnvelopesAndDerivesDead :
    arpNoteDue live = false ∧
      (let s : State := { arpeggio 1 with ctl := { (arpeggio 1).ctl with stepTimer := 5 } }
       arpMode s = .up ∧ arpNoteDue s = false) := by decide

theorem witness_InternalClockStepBoundaries :
    extClock State.reset = false ∧ State.reset.ctl.held = [] ∧ extClock live = false ∧ live.ctl.held ≠ [] ∧
      live.ctl.running = false ∧
      (let d := ticksPerStep live.cfg (readPatch live (offSeq live.cfg)).toNat
       d + d * (readPatch live (offSeq live.cfg + 4)).toNat / 256 < 65536) := by decide
theorem witness_InternalClockStepBoundaries_between :
    let s : State := { live with ctl := { live.ctl with running := true, stepTimer := 1 } }
    extClock s = false ∧ s.ctl.held ≠ [] ∧ s.ctl.running = true ∧ s.ctl.stepTimer ≠ 0 := by decide

theorem witness_ExternalClockStepBoundaries :
    extClock external = true ∧ external.ctl.extRun = true ∧ external.ctl.extPending = 0 ∧
      ({ external with ctl := { external.ctl with extRun := false } } : State).ctl.extRun = false ∧
      ({ external with ctl := { external.ctl with extPending := 1 } } : State).ctl.extPending ≠ 0 := by decide

theorem witness_ArpeggiatorPlaysTheTraversal : (arpeggio 1).heldOk ∧ arpNoteDue (arpeggio 1) = true :=
  ⟨⟨by decide, by decide⟩, by decide⟩
/-- The tick that enters Running. -/
theorem witness_ArpeggiatorPlaysTheTraversal_entering :
    let s : State := { arpeggio 1 with ctl := { (arpeggio 1).ctl with running := false, stepTimer := 9 } }
    s.heldOk ∧ arpNoteDue s = true := ⟨⟨by decide, by decide⟩, by decide⟩
theorem witness_ArpeggiatorPlaysTheTraversal_external :
    externalArpeggio.heldOk ∧ extClock externalArpeggio = true ∧ arpNoteDue externalArpeggio = true :=
  ⟨⟨by decide, by decide⟩, by decide, by decide⟩
theorem witness_ArpeggiatorPlaysTheTraversal_modes :
    arpMode (arpeggio 1) = .up ∧ arpMode (arpeggio 2) = .down ∧ arpMode (arpeggio 3) = .upDown ∧
      arpMode (arpeggio 4) = .random ∧ arpNoteDue (arpeggio 2) = true ∧ arpNoteDue (arpeggio 3) = true ∧
      arpNoteDue (arpeggio 4) = true := by decide

theorem witness_DriftCorrectionResetsSyncedLfos :
    stepBoundary State.reset = false ∧ stepBoundary live = true ∧ stepBoundary externalArpeggio = true ∧
      ¬ (readPatch State.reset (offLfoRate .lfo1)).toNat < 16 ∧ ¬ (readPatch State.reset (offLfoRate .lfo2)).toNat < 16 ∧
      (readPatch (patched 24 3 State.reset) (offLfoRate .lfo1)).toNat < 16 ∧
      (patched 24 3 State.reset).eng.lfoSyncSteps.toNat + 1 < 4 ∧
      4 ≤ ({ State.reset with eng := { State.reset.eng with lfoSyncSteps := 3 } } : State).eng.lfoSyncSteps.toNat + 1 := by decide

/-- Ids in and beyond the default catalog, beyond a catalog of two, and of a further waveform. -/
theorem witness_LfoAdvancesAndRenders :
    65536 ≤ (0xFFF0 : Half).toNat + (64 : Half).toNat ∧ (3 : Byte) = 3 ∧ ¬ 65536 ≤ (0 : Half).toNat + (64 : Half).toNat ∧
      defaultConfig.numLfoWaves ≤ (4 : Byte).toNat ∧ 3 < defaultConfig.numLfoWaves ∧
      ({ defaultConfig with numLfoWaves := 2 } : Config).numLfoWaves ≤ (2 : Byte).toNat ∧
      3 < (4 : Byte).toNat ∧ (4 : Byte).toNat < ({ defaultConfig with numLfoWaves := 5 } : Config).numLfoWaves := by decide

theorem witness_RandomDrawShiftsAndTaps :
    (0xE270 : Half).toNat % 2 = 0 ∧ (0xACE1 : Half).toNat % 2 = 1 ∧ (0xACE1 : Half) ≠ 0 := by decide

theorem witness_WaveformCatalog :
    defaultConfig.numOscAlgs ≤ (4 : Byte).toNat ∧ 3 < defaultConfig.numOscAlgs ∧
      ({ defaultConfig with numOscAlgs := 2 } : Config).numOscAlgs ≤ (2 : Byte).toNat ∧
      3 < (4 : Byte).toNat ∧ (4 : Byte).toNat < ({ defaultConfig with numOscAlgs := 5 } : Config).numOscAlgs := by decide

theorem witness_MixingStaysInRange : (0 : Int) ≤ 0 ∧ (0 : Int) ≤ 255 ∧ (255 : Int) ≤ 255 := by decide

theorem witness_AudioTicksTheNoise :
    State.reset.eng.noiseCtr + 1 < State.reset.cfg.noiseDecim ∧
      State.reset.cfg.noiseDecim ≤ ({ State.reset with eng := { State.reset.eng with noiseCtr := 1 } } : State).eng.noiseCtr + 1 ∧
      State.reset.voice.dead = true := by decide

theorem witness_LiveVoiceSample : live.voice.dead = false := rfl
theorem witness_LiveVoiceAdvancesItsOscillators : live.voice.dead = false := rfl

theorem witness_RenderBlockIsControlAndAudioTicks :
    (ringOf [1, 2, 3, 4, 5]).cfg.ringSize - (ringOf [1, 2, 3, 4, 5]).out.ring.length < (ringOf [1, 2, 3, 4, 5]).cfg.blockSize ∧
      (ringOf [1, 2, 3, 4]).cfg.blockSize ≤ (ringOf [1, 2, 3, 4]).cfg.ringSize - (ringOf [1, 2, 3, 4]).out.ring.length ∧
      (ringOf [1, 2, 3, 4]).sched = [] := by decide

theorem witness_BlockSamplesAreQueuedInOrder :
    let s : State := { ringOf [1, 2, 3, 4] with sched := [.host, .consumer, .consumer] }
    s.cfg.blockSize ≤ s.cfg.ringSize - s.out.ring.length ∧ s.ringOk :=
  ⟨by decide, by unfold State.ringOk; decide⟩

theorem witness_ConsumerCanSeeAMixOfControlValues :
    ({ live with sched := [.host, .consumer] } : State).sched = [.host, .consumer] := rfl

theorem witness_SysexReceiverSteps :
    State.reset.rx.state = .idle ∧ (exec .sysexStart State.reset = .next (State.reset.setRx State.reset.rx.begin)) ∧
      (State.reset.setRx State.reset.rx.begin).rx.state = .header ∧ State.reset.cfg.sysexHeader[(0 : Nat)]? = some 0x7D ∧
      receiving.rx.state = .data ∧ 0x0F < (0x10 : Byte).toNat ∧ (0x0F : Byte).toNat ≤ 0x0F ∧ receiving.storesOk :=
  ⟨rfl, rfl, rfl, rfl, rfl, by decide, by decide, ⟨by decide, by decide⟩⟩
/-- The positions 0, 1, 153, 154, 155 and 156 of a frame whose data is 154 nibbles. -/
theorem witness_SysexReceiverSteps_positions :
    let nb := 2 * patchSize receiving.cfg
    nb = 154 ∧ 0 < nb ∧ 0 % 2 = 0 ∧ 153 < nb ∧ 153 % 2 = 1 ∧ 154 = nb ∧ 155 = nb + 1 ∧ nb + 2 ≤ 156 := by decide

theorem witness_SysexEndCommitsOrRejects :
    State.reset.rx.state ≠ .header ∧ State.reset.rx.state ≠ .data ∧ receiving.rx.state = .data ∧
      receiving.rx.pos.toNat ≠ 2 * patchSize receiving.cfg + 2 ∧ received.rx.state = .data ∧
      received.rx.pos.toNat = 2 * patchSize received.cfg + 2 ∧ received.rx.cks = received.rx.sum ∧
      (∀ i < 31, (readRx received i).toNat < 0x80) ∧ ∀ i < 8, (readRx received (patchSize received.cfg - 8 + i)).toNat < 0x80 := by
  decide

/-- DEFAULT_PATCH as a list of bytes. -/
def defaultBytes : List Byte := (List.range 77).map (defaultPatchByte defaultConfig)

theorem witness_LoadPatchRoundTrip :
    State.reset.storesOk ∧ defaultBytes.length = patchSize State.reset.cfg ∧ State.reset.cfg.sysexHeader ≠ [] ∧
      State.reset.cfg.sysexHeader.length < 65536 ∧ 2 * patchSize State.reset.cfg + 2 < 65536 ∧
      validBuf State.reset.cfg (fun a => defaultBytes.getD a 0) = true ∧
      validBuf State.reset.cfg (fun a => (defaultBytes.set 3 0x80).getD a 0) = false :=
  ⟨reset_stores_ok, by decide, by decide, by decide, by decide, by decide, by decide⟩

/-- 95 §1.3: word 27 of the frame of DEFAULT_PATCH, the low nibble of byte 11, changed from 0x0F to 0x0E. -/
theorem witness_SingleNibbleCorruptionIsRejected :
    23 < 2 * patchSize State.reset.cfg ∧
      (loadPatchCommands State.reset.cfg defaultBytes)[1 + State.reset.cfg.sysexHeader.length + 23]? = some (.sysexByte 0x0F) ∧
      (loadPatchCommands State.reset.cfg defaultBytes)[1 + State.reset.cfg.sysexHeader.length + 23]? ≠ some (.sysexByte 0x0E) := by
  decide

end Sys2Proof.Tests
end

section
/-! The scope family (00_scope.md): what the well-formedness check of R8 says in numbers, that the types of the table entries
hold R8's remaining conditions, and that a refusal of `step` is that check alone, since every turn gives a next state. -/

namespace Sys2Proof

/-- R8's conditions on sizes, counts and header bytes, as `Config.wf` decides them. -/
theorem Config.wf_iff (c : Config) :
    c.wf = true ↔ 1 ≤ c.blockSize ∧ c.blockSize ≤ c.ringSize ∧ 1 ≤ c.numModSlots ∧ 1 ≤ c.clocksPerStep ∧
      1 ≤ c.noiseDecim ∧ ∀ b ∈ c.sysexHeader, b.toNat < 0x80 := by
  simp [Config.wf, Config.blockSizeOk, Config.ringSizeOk, Config.slotsOk, Config.clocksOk, Config.noiseOk, Config.headerOk,
    and_assoc]

end Sys2Proof

namespace Sys2Proof.Machine

/-! ## The table entries -/

theorem one_le_ticksPerStep (c : Config) (t : Nat) : 1 ≤ ticksPerStep c t := by
  unfold ticksPerStep
  cases c.ticksPerStep[t - 1]? with
  | none => exact le_refl 1
  | some d => exact d.property

theorem envInc_le (c : Config) (p : Nat) : envInc c p ≤ 16384 := Nat.le_of_lt_succ (c.envInc.getD p 0).isLt

/-! ## Every turn gives a next state (R550) -/

theorem exec_eq_next (i : Instr) (s : State) : ∃ t, exec i s = .next t := by
  cases i <;> exact ⟨_, rfl⟩

theorem runWord_eq_next (w : Word) (s : State) : ∃ t, runWord w s = .next t := by
  unfold runWord
  cases decode w with
  | ok i => exact exec_eq_next i s
  | reject r => exact ⟨s, rfl⟩

theorem hostTurn_eq_next (s : State) : ∃ t, hostTurn s = .next t := by
  unfold hostTurn
  cases fetchWord s with
  | some p => exact runWord_eq_next p.1 p.2
  | none => exact ⟨s, rfl⟩

theorem turn_eq_next (s : State) : ∃ t, turn s = .next t := by
  unfold turn
  split
  · exact ⟨_, rfl⟩
  · exact hostTurn_eq_next _
  · exact hostTurn_eq_next _

/-! ## What `step` does with the configuration -/

theorem step_of_wf {s : State} (h : s.cfg.wf = true) : step s = turn s := if_pos h

theorem step_of_not_wf {s : State} (h : ¬ s.cfg.wf = true) : step s = .refused .illFormedConfiguration := if_neg h

theorem step_refused_iff (s : State) : step s = .refused .illFormedConfiguration ↔ ¬ s.cfg.wf = true := by
  refine ⟨fun hr hwf => ?_, step_of_not_wf⟩
  obtain ⟨t, ht⟩ := turn_eq_next s
  rw [step_of_wf hwf, ht] at hr
  cases hr

/-- Settles O6: the refusal is the check `Config.wf`, as no turn is refused; the entries' widths are their types. -/
theorem illFormedConfigurationIsRefused : Obligations.IllFormedConfigurationIsRefused := fun s =>
  ⟨(step_refused_iff s).trans (not_congr s.cfg.wf_iff), one_le_ticksPerStep s.cfg, envInc_le s.cfg,
    fun o => (pitchTable s.cfg o).isLt, fun r => (lfoRate s.cfg r).isLt⟩

end Sys2Proof.Machine
end

section
/-! The invariant of a run (10_state.md): one rule per state operation that says what it needs to keep `State.Inv`, then one
lemma per operation of the commands, then `exec` and `step`. -/

namespace Sys2Proof.Machine

variable {s t : State}

/-! ## Envelopes and the voice -/

theorem Envelope.ok.trigger {e : Envelope} (h : e.ok) {st : Stage} (hst : st ≠ .dead) : (e.trigger st).ok := by
  obtain ⟨ha, hd, hr, -⟩ := id h
  unfold Envelope.trigger
  split
  · exact h
  · exact ⟨ha, hd, hr, fun hdead => absurd hdead hst⟩

theorem Envelope.trigger_release_of_dead {e : Envelope} (h : e.stage = .dead) : e.trigger .release = e :=
  if_pos ⟨h, by decide⟩

/-- A move that turns DEAD only on reaching target 0 leaves a dead envelope at 0 (R201, R206). -/
theorem Envelope.ok.moveTo {e : Envelope} (h : e.ok) (hlive : e.stage ≠ .dead) {target : Nat} (inc : Nat) {after : Stage}
    (hafter : after = .dead → target = 0) : (e.moveTo target inc after).ok := by
  obtain ⟨ha, hd, hr, -⟩ := h
  refine ⟨ha, hd, hr, fun hdead => ?_⟩
  simp only [Envelope.moveTo] at hdead ⊢
  split at hdead
  · next hreached => rw [hreached, hafter hdead]; rfl
  · exact absurd hdead hlive

theorem Envelope.ok.render {e : Envelope} (h : e.ok) : e.render.ok := by
  unfold Envelope.render
  split
  · next hs => exact h.moveTo (by simp [hs]) _ nofun
  · next hs => exact h.moveTo (by simp [hs]) _ nofun
  · exact h
  · next hs => exact h.moveTo (by simp [hs]) _ fun _ => rfl
  · exact h

theorem Envelope.ok.kill {e : Envelope} (h : e.ok) : e.kill.ok := by
  obtain ⟨ha, hd, hr, -⟩ := h
  exact ⟨ha, hd, hr, fun _ => rfl⟩

theorem Envelope.ok.recompute {e : Envelope} (h : e.ok) (c : Config) (a d u r : Byte) : (e.recompute c a d u r).ok := by
  obtain ⟨-, -, -, hdead⟩ := h
  exact ⟨envInc_le c _, envInc_le c _, envInc_le c _, hdead⟩

/-- `State.voiceOk` as a predicate of the voice, with named parts. -/
structure Voice.Ok (v : Voice) : Prop where
  env1 : v.env1.ok
  env2 : v.env2.ok
  dead : v.dead = true → v.env1.stage = .dead ∧ v.env2.stage = .dead
  note : v.note.toNat ≤ 163
  sub  : v.sub.alg = 2

theorem voiceOk_iff : s.voiceOk ↔ s.voice.Ok :=
  ⟨fun ⟨h1, h2, hd, hn, hs⟩ => ⟨h1, h2, hd, hn, hs⟩, fun h => ⟨h.env1, h.env2, h.dead, h.note, h.sub⟩⟩

theorem Voice.Ok.release {v : Voice} (h : v.Ok) : v.release.Ok where
  env1 := h.env1.trigger (by decide)
  env2 := h.env2.trigger (by decide)
  dead hd := by
    obtain ⟨h1, h2⟩ := h.dead hd
    simp only [Voice.release, Envelope.trigger_release_of_dead h1, Envelope.trigger_release_of_dead h2, h1, h2, and_self]
  note := h.note
  sub := h.sub

theorem Voice.Ok.renderEnvelopes {v : Voice} (h : v.Ok) : v.renderEnvelopes.Ok where
  env1 := h.env1.render
  env2 := h.env2.render
  dead hd := by
    simp only [Voice.renderEnvelopes, Voice.deadNow, Envelope.isDead, Bool.and_eq_true, decide_eq_true_eq] at hd
    exact hd.1
  note := h.note
  sub := h.sub

theorem Voice.Ok.glide {v : Voice} (h : v.Ok) : v.glide.Ok := by
  rw [glide_eq]
  exact ⟨h.env1, h.env2, h.dead, h.note, h.sub⟩

theorem Voice.Ok.refreshSources {v : Voice} (h : v.Ok) : v.refreshSources.Ok := ⟨h.env1, h.env2, h.dead, h.note, h.sub⟩

theorem Voice.Ok.advanceOscs {v : Voice} (h : v.Ok) : v.advanceOscs.Ok := ⟨h.env1, h.env2, h.dead, h.note, h.sub⟩

theorem Voice.Ok.hardSync {v : Voice} (h : v.Ok) (opt : Combine) : (v.hardSync opt).Ok := by
  unfold Voice.hardSync
  split
  · exact ⟨h.env1, h.env2, h.dead, h.note, h.sub⟩
  · exact h

theorem startEnvelopes_env_ok {v : Voice} (h1 : v.env1.ok) (h2 : v.env2.ok) (legato : Bool) :
    (v.startEnvelopes legato).env1.ok ∧ (v.startEnvelopes legato).env2.ok := by
  unfold Voice.startEnvelopes
  split
  · exact ⟨h1, h2⟩
  · exact ⟨h1.trigger (by decide), h2.trigger (by decide)⟩

/-- A triggered voice is not dead, so only its envelopes, its note and its sub oscillator are constrained. -/
theorem Voice.Ok.trigger (h : s.voice.Ok) {n : Byte} (hn : n.toNat ≤ 163) (vel : BitVec 7) (legato : Bool) :
    (voiceTrigger s n vel legato).voice.Ok := by
  unfold voiceTrigger
  simp only [setVoice_voice]
  rw [startGlide_eq, startEnvelopes_eq]
  obtain ⟨h1, h2⟩ := startEnvelopes_env_ok
    (v := { s.voice with note := n, velocity := vel, target := storeS16 .target (notePitch s n) }) h.env1 h.env2
    (legato && !s.voice.dead)
  exact ⟨h1, h2, nofun, hn, h.sub⟩

/-! ## The generator -/

theorem rngStep_ne_zero {r : Half} (h : r ≠ 0) : rngStep r ≠ 0 := by
  unfold rngStep
  split
  · intro h0
    have htop := congrArg (BitVec.getLsbD · 15) h0
    simp at htop
  · next hbit =>
    have hr : r.toNat ≠ 0 := fun h0 => h (BitVec.eq_of_toNat_eq h0)
    have hodd : r.toNat % 2 = 0 := by simpa [BitVec.getLsbD, Nat.testBit_zero] using hbit
    intro h0
    have := congrArg BitVec.toNat h0
    simp [Nat.shiftRight_eq_div_pow] at this
    omega

theorem advance_rng_ne_zero (l : Lfo) {r : Half} (h : r ≠ 0) : (l.advance r).2 ≠ 0 := by
  simp only [Lfo.advance]
  split
  · exact rngStep_ne_zero h
  · exact h

theorem arpIndex_rng_ne_zero (m : ArpMode) (len pos : Nat) {r : Half} (h : r ≠ 0) : (arpIndex m len pos r).2.2 ≠ 0 := by
  cases m with
  | random => exact rngStep_ne_zero h
  | off => exact h
  | up => exact h
  | down => exact h
  | upDown => exact h

/-! ## The held notes -/

/-- `State.heldOk` as a predicate of the held-note list. -/
def HeldOk (l : List HeldNote) : Prop := l.length ≤ heldCap ∧ (l.map HeldNote.note).Nodup

theorem HeldOk.nil : HeldOk [] := ⟨Nat.zero_le _, List.nodup_nil⟩

theorem HeldOk.remove {l : List HeldNote} (h : HeldOk l) (n : BitVec 7) : HeldOk (heldRemove l n) :=
  ⟨(List.length_filter_le _ l).trans h.1, h.2.sublist (List.filter_sublist.map _)⟩

theorem HeldOk.add {l : List HeldNote} (h : HeldOk l) (n v : BitVec 7) : HeldOk (heldAdd l n v) := by
  obtain ⟨-, hnodup⟩ := h.remove n
  have hnew : n ∉ (heldRemove l n).map HeldNote.note := by simp [heldRemove]
  simp only [heldAdd]
  split
  · next hroom =>
    refine ⟨by simpa using hroom, ?_⟩
    rw [List.map_append, List.map_singleton, List.nodup_append]
    exact ⟨hnodup, List.nodup_singleton _, by simpa using hnew⟩
  · exact h.remove n

/-! ## One rule per state operation -/

theorem State.Inv.noiseCtr_lt (h : s.Inv) : s.eng.noiseCtr < s.cfg.noiseDecim := h.counters.1

theorem State.Inv.pulseCtr_lt (h : s.Inv) : s.ctl.pulseCtr < s.cfg.clocksPerStep := h.counters.2.1

theorem State.Inv.rng_ne_zero (h : s.Inv) : s.eng.rng ≠ 0 := h.counters.2.2

theorem State.Inv.patch_wf (h : s.Inv) : Memory.wf (defaultPatchByte s.cfg) (patchSize s.cfg) s.patch = true := h.stores.1

theorem State.Inv.rxBuf_wf (h : s.Inv) : Memory.wf rxDefaultByte (patchSize s.cfg) s.rx.buf = true := h.stores.2

theorem State.Inv.voice_ok (h : s.Inv) : s.voice.Ok := voiceOk_iff.mp h.voice

theorem State.Inv.setVoice (h : s.Inv) {v : Voice} (hv : v.Ok) : (s.setVoice v).Inv :=
  ⟨h.stores, h.ring, h.held, h.counters, voiceOk_iff.mpr hv⟩

theorem State.Inv.setCtl (h : s.Inv) {c : Controller} (hheld : HeldOk c.held) (hpulse : c.pulseCtr < s.cfg.clocksPerStep) :
    (s.setCtl c).Inv :=
  ⟨h.stores, h.ring, hheld, ⟨h.noiseCtr_lt, hpulse, h.rng_ne_zero⟩, h.voice⟩

theorem State.Inv.setEng (h : s.Inv) {e : Engine} (hnoise : e.noiseCtr < s.cfg.noiseDecim) (hrng : e.rng ≠ 0) :
    (s.setEng e).Inv :=
  ⟨h.stores, h.ring, h.held, ⟨hnoise, h.pulseCtr_lt, hrng⟩, h.voice⟩

theorem State.Inv.setRx (h : s.Inv) {r : Receiver} (hbuf : Memory.wf rxDefaultByte (patchSize s.cfg) r.buf = true) :
    (s.setRx r).Inv :=
  ⟨⟨h.patch_wf, hbuf⟩, h.ring, h.held, h.counters, h.voice⟩

theorem State.Inv.setOut (h : s.Inv) {o : Output} (hring : o.ring.length ≤ s.cfg.ringSize) : (s.setOut o).Inv :=
  ⟨h.stores, hring, h.held, h.counters, h.voice⟩

theorem State.Inv.setLfo (h : s.Inv) (i : LfoId) (l : Lfo) : (s.setLfo i l).Inv := by
  cases i <;> exact ⟨h.stores, h.ring, h.held, h.counters, h.voice⟩

theorem State.Inv.setLfosEng (h : s.Inv) {l1 l2 : Lfo} {e : Engine} (hnoise : e.noiseCtr < s.cfg.noiseDecim)
    (hrng : e.rng ≠ 0) : State.Inv { s with lfo1 := l1, lfo2 := l2, eng := e } :=
  ⟨h.stores, h.ring, h.held, ⟨hnoise, h.pulseCtr_lt, hrng⟩, h.voice⟩

theorem State.Inv.setCtlEng (h : s.Inv) {c : Controller} {e : Engine} (hheld : HeldOk c.held)
    (hpulse : c.pulseCtr < s.cfg.clocksPerStep) (hnoise : e.noiseCtr < s.cfg.noiseDecim) (hrng : e.rng ≠ 0) :
    State.Inv { s with ctl := c, eng := e } :=
  (h.setCtl hheld hpulse).setEng hnoise hrng

theorem State.Inv.setPatch (h : s.Inv) {m : Memory}
    (hm : Memory.wf (defaultPatchByte s.cfg) (patchSize s.cfg) m = true) : State.Inv { s with patch := m } :=
  ⟨⟨hm, h.rxBuf_wf⟩, h.ring, h.held, h.counters, h.voice⟩

/-- The port, the schedule and the record of outputs are outside the invariant. -/
theorem State.Inv.setRun (h : s.Inv) (p : List Word) (l : List Agent) (e : List Emission) :
    State.Inv { s with port := p, sched := l, emitted := e } :=
  ⟨h.stores, h.ring, h.held, h.counters, h.voice⟩

/-! ## Parameters -/

theorem State.Inv.recomputeEnvs (h : s.Inv) : (recomputeEnvs s).Inv :=
  h.setVoice
    { env1 := h.voice_ok.env1.recompute _ _ _ _ _
      env2 := h.voice_ok.env2.recompute _ _ _ _ _
      dead := h.voice_ok.dead
      note := h.voice_ok.note
      sub := h.voice_ok.sub }

theorem State.Inv.setupOsc1 (h : s.Inv) : (setupOsc1 s).Inv :=
  h.setVoice ⟨h.voice_ok.env1, h.voice_ok.env2, h.voice_ok.dead, h.voice_ok.note, h.voice_ok.sub⟩

theorem State.Inv.setupOsc2 (h : s.Inv) : (setupOsc2 s).Inv :=
  h.setVoice ⟨h.voice_ok.env1, h.voice_ok.env2, h.voice_ok.dead, h.voice_ok.note, h.voice_ok.sub⟩

theorem State.Inv.updateLfo (h : s.Inv) (i : LfoId) : (updateLfo s i).Inv := h.setLfo i _

theorem State.Inv.recompute (h : s.Inv) (idx : Nat) : (recompute s idx).Inv := by
  unfold Machine.recompute
  split
  · exact h.setupOsc1
  split
  · exact h.setupOsc2
  split
  · exact h.recomputeEnvs
  split
  · exact h.updateLfo .lfo1
  split
  · exact h.updateLfo .lfo2
  · exact h

theorem State.Inv.recomputeAll (h : s.Inv) : (recomputeAll s).Inv :=
  ((h.setupOsc1.setupOsc2.recomputeEnvs).updateLfo .lfo1).updateLfo .lfo2

theorem State.Inv.setParam (h : s.Inv) (idx : Nat) (val : Byte) : (setParam s idx val).Inv := by
  unfold Machine.setParam
  split
  · next hidx => exact (h.setPatch (Memory.wf_write h.patch_wf hidx)).recompute idx
  · exact h

theorem State.Inv.controlChangeBody (h : s.Inv) (k v : BitVec 7) : (controlChangeBody k v s).Inv := by
  unfold Machine.controlChangeBody
  split
  · exact h.setEng h.noiseCtr_lt h.rng_ne_zero
  · exact h.setParam _ _
  · exact h.setParam _ _
  · exact h.setParam _ _
  · exact h.setParam _ _
  · exact h.setParam _ _
  · exact h.setParam _ _
  · exact h.setEng h.noiseCtr_lt h.rng_ne_zero
  · exact h.setEng h.noiseCtr_lt h.rng_ne_zero
  · exact h

/-! ## Notes -/

theorem State.Inv.voiceTrigger (h : s.Inv) {n : Byte} (hn : n.toNat ≤ 163) (vel : BitVec 7) (legato : Bool) :
    (voiceTrigger s n vel legato).Inv := h.setVoice (h.voice_ok.trigger hn vel legato)

theorem State.Inv.voiceRelease (h : s.Inv) : (voiceRelease s).Inv := h.setVoice h.voice_ok.release

theorem noteByte_le (n : BitVec 7) : (noteByte n).toNat ≤ 163 := by
  have := n.isLt
  simp only [noteByte, BitVec.toNat_setWidth]
  omega

theorem State.Inv.ctlNoteOn (h : s.Inv) (n v : BitVec 7) : (ctlNoteOn s n v).Inv := by
  have hset := h.setCtl (c := { s.ctl with held := heldAdd s.ctl.held n v }) (HeldOk.add h.held n v) h.pulseCtr_lt
  simp only [Machine.ctlNoteOn]
  split
  · exact hset.voiceTrigger (noteByte_le n) v _
  · exact hset

theorem State.Inv.ctlNoteOff (h : s.Inv) (n : BitVec 7) : (ctlNoteOff s n).Inv := by
  have hset := h.setCtl (c := { s.ctl with held := heldRemove s.ctl.held n }) (HeldOk.remove h.held n) h.pulseCtr_lt
  simp only [Machine.ctlNoteOff]
  split
  · split
    · exact hset.voiceRelease
    · split
      · exact hset.voiceTrigger (noteByte_le _) _ _
      · exact hset
  · exact h

theorem State.Inv.noteOnBody (h : s.Inv) (k v : BitVec 7) : (noteOnBody k v s).Inv := by
  unfold Machine.noteOnBody
  split
  · exact h.ctlNoteOff k
  · exact h.ctlNoteOn k v

theorem State.Inv.clearHeld (h : s.Inv) : (s.setCtl { s.ctl with held := [] }).Inv := h.setCtl HeldOk.nil h.pulseCtr_lt

theorem State.Inv.allNotesOffBody (h : s.Inv) : (allNotesOffBody s).Inv := h.clearHeld.voiceRelease

theorem State.Inv.allSoundOffBody (h : s.Inv) : (allSoundOffBody s).Inv := by
  refine State.Inv.clearHeld (h.setVoice ?_)
  exact ⟨h.voice_ok.env1.kill, h.voice_ok.env2.kill, fun _ => ⟨rfl, rfl⟩, h.voice_ok.note, h.voice_ok.sub⟩

/-! ## The controller's tick -/

theorem octaveSpan_pos_le (s : State) : 1 ≤ octaveSpan s ∧ octaveSpan s ≤ 4 := by
  unfold octaveSpan
  omega

/-- The highest note of the traversal is a held note three octaves up: 127 + 36 (R385). -/
theorem arpElement_note_le (held : List HeldNote) {j : Nat} (hj : j < held.length * 4) :
    (arpElement held j).1.toNat ≤ 163 := by
  have hoct : j / held.length < 4 := Nat.div_lt_of_lt_mul hj
  have hnote := ((sortedHeld held).getD (j % held.length) ⟨0, 0⟩).note.isLt
  simp only [arpElement, BitVec.toNat_ofNat]
  exact (Nat.mod_le _ _).trans (by omega)

theorem State.Inv.arpStep (h : s.Inv) (hheld : s.ctl.held ≠ []) : (arpStep s).Inv := by
  obtain ⟨hpos, hle⟩ := octaveSpan_pos_le s
  have hlen : 0 < s.ctl.held.length := List.length_pos_iff.mpr hheld
  have hj := arpIndex_lt (arpMode s) (arpLength s) s.ctl.arpPos.toNat s.eng.rng (Nat.mul_pos hlen hpos)
  have hj4 := hj.trans_le (Nat.mul_le_mul_left _ hle)
  refine State.Inv.voiceTrigger (h.setCtlEng ?_ ?_ ?_ ?_) (arpElement_note_le s.ctl.held hj4) _ false
  · exact h.held
  · exact h.pulseCtr_lt
  · exact h.noiseCtr_lt
  · exact arpIndex_rng_ne_zero _ _ _ h.rng_ne_zero

theorem State.Inv.doStep (h : s.Inv) : (doStep s).Inv := by
  have hsrc : (setSeqSources s (currentStep s)).Inv := h.setCtl h.held h.pulseCtr_lt
  simp only [Machine.doStep]
  split
  · next hplay =>
    have hheld : s.ctl.held ≠ [] := by
      simp only [Bool.and_eq_true, Bool.not_eq_true', List.isEmpty_eq_false_iff] at hplay
      exact hplay.2
    have harp := hsrc.arpStep hheld
    exact harp.setCtl harp.held harp.pulseCtr_lt
  · exact hsrc.setCtl hsrc.held hsrc.pulseCtr_lt

theorem takeBoundary_held (c : Controller) (ext : Bool) : (c.takeBoundary ext).held = c.held := by
  unfold Controller.takeBoundary
  split <;> rfl

theorem takeBoundary_pulseCtr (c : Controller) (ext : Bool) : (c.takeBoundary ext).pulseCtr = c.pulseCtr := by
  unfold Controller.takeBoundary
  split <;> rfl

theorem State.Inv.playStep (h : s.Inv) : (playStep s).Inv :=
  (h.setCtl (by rw [takeBoundary_held]; exact h.held) (by rw [takeBoundary_pulseCtr]; exact h.pulseCtr_lt)).doStep

theorem State.Inv.boundary (h : s.Inv) : (boundary s).Inv := by
  unfold Machine.boundary
  split
  · exact h.playStep
  · exact h.playStep.setCtl h.playStep.held h.playStep.pulseCtr_lt

theorem State.Inv.countDown (h : s.Inv) : (countDown s).Inv := by
  unfold Machine.countDown
  split
  · exact h.setCtl h.held h.pulseCtr_lt
  · exact h

theorem State.Inv.settled (h : s.Inv) : (settled s).Inv := by
  have hheld : (Machine.settled s).ctl.held = s.ctl.held := by simp
  have hpulse : (Machine.settled s).ctl.pulseCtr = s.ctl.pulseCtr := by simp
  rw [settled_ctl_eq] at hheld hpulse
  exact h.setCtl (by rw [hheld]; exact h.held) (by rw [hpulse]; exact h.pulseCtr_lt)

theorem State.Inv.ctlControl (h : s.Inv) : (ctlControl s).1.Inv := by
  simp only [Machine.ctlControl]
  split
  · exact h.settled.boundary.countDown
  · exact h.settled.countDown

theorem State.Inv.driftStep (h : s.Inv) : (driftStep s).Inv := by
  unfold Machine.driftStep
  split
  · exact h.setEng h.noiseCtr_lt h.rng_ne_zero
  split
  · exact h.setLfosEng h.noiseCtr_lt h.rng_ne_zero
  · exact h.setEng h.noiseCtr_lt h.rng_ne_zero

theorem State.Inv.controllerTick (h : s.Inv) : (controllerTick s).Inv := by
  simp only [Machine.controllerTick]
  split
  · exact h.ctlControl.driftStep
  · exact h.ctlControl

/-! ## Clocks -/

theorem State.Inv.ctlClock (h : s.Inv) : (ctlClock s).Inv := by
  have hpos : 0 < s.cfg.clocksPerStep := Nat.zero_lt_of_lt h.pulseCtr_lt
  unfold Machine.ctlClock
  split
  · split
    · exact h.setCtl h.held hpos
    · next hlt => exact h.setCtl h.held (by simpa using hlt)
  · exact h

theorem State.Inv.ctlStart (h : s.Inv) : (ctlStart s).Inv := h.setCtl h.held (Nat.zero_lt_of_lt h.pulseCtr_lt)

theorem State.Inv.ctlStop (h : s.Inv) : (ctlStop s).Inv := h.setCtl h.held h.pulseCtr_lt

/-! ## Control and audio ticks -/

theorem State.Inv.advanceLfos (h : s.Inv) : (advanceLfos s).Inv :=
  h.setLfosEng h.noiseCtr_lt (advance_rng_ne_zero _ (advance_rng_ne_zero _ h.rng_ne_zero))

theorem State.Inv.rngNext (h : s.Inv) : (rngNext s).1.Inv := h.setEng h.noiseCtr_lt (rngStep_ne_zero h.rng_ne_zero)

theorem State.Inv.drawRandom (h : s.Inv) : (drawRandom s).Inv :=
  h.rngNext.setEng h.rngNext.noiseCtr_lt h.rngNext.rng_ne_zero

theorem State.Inv.refreshSources (h : s.Inv) : (refreshSources s).Inv := h.setEng h.noiseCtr_lt h.rng_ne_zero

theorem State.Inv.resolveMatrix (h : s.Inv) : (resolveMatrix s).Inv :=
  h.setVoice ⟨h.voice_ok.env1, h.voice_ok.env2, h.voice_ok.dead, h.voice_ok.note, h.voice_ok.sub⟩

theorem State.Inv.updateOscs (h : s.Inv) : (updateOscs s).Inv :=
  h.setVoice ⟨h.voice_ok.env1, h.voice_ok.env2, h.voice_ok.dead, h.voice_ok.note, h.voice_ok.sub⟩

theorem State.Inv.voiceControl (h : s.Inv) : (voiceControl s).Inv :=
  (h.setVoice h.voice_ok.renderEnvelopes.glide.refreshSources).resolveMatrix.updateOscs

theorem State.Inv.controlCore (h : s.Inv) : (controlCore s).Inv :=
  h.advanceLfos.controllerTick.drawRandom.refreshSources.voiceControl

theorem State.Inv.noiseUpdate (h : s.Inv) : (noiseUpdate s).Inv := by
  simp only [Machine.noiseUpdate]
  split
  · exact h.setEng (Nat.zero_lt_of_lt h.noiseCtr_lt) (rngStep_ne_zero h.rng_ne_zero)
  · next hlt => exact h.setEng (by simpa using hlt) h.rng_ne_zero

theorem State.Inv.voiceAudio (h : s.Inv) : (voiceAudio s).1.Inv := by
  unfold Machine.voiceAudio
  split
  · exact h
  · exact h.setVoice (h.voice_ok.advanceOscs.hardSync _)

theorem State.Inv.audioStep (h : s.Inv) : (audioStep s).1.Inv := h.noiseUpdate.voiceAudio

/-! ## The consumer and the interleaved sub-steps -/

theorem consumerTick_ring (s : State) : (consumerTick s).out.ring = s.out.ring.tail := by
  simp only [consumerTick, Output.popSample, Output.drivePins]
  split
  · next hr => rw [hr]; rfl
  · next hr => rw [hr]; rfl

theorem consumerTick_ring_length_le (s : State) : (consumerTick s).out.ring.length ≤ s.out.ring.length := by
  rw [consumerTick_ring, List.length_tail]
  omega

theorem State.Inv.consumerTick (h : s.Inv) : (consumerTick s).Inv :=
  (h.setOut ((consumerTick_ring_length_le s).trans h.ring)).setRun _ _ _

theorem State.Inv.preemptBy {l : List Agent} (h : s.Inv) : (preemptBy l s).Inv := by
  induction l generalizing s with
  | nil => exact h.setRun _ _ _
  | cons a l ih =>
    cases a with
    | host => exact h.setRun _ _ _
    | consumer => exact ih h.consumerTick

theorem preemptBy_ring_length_le (l : List Agent) (s : State) : (preemptBy l s).out.ring.length ≤ s.out.ring.length := by
  induction l generalizing s with
  | nil => exact le_refl _
  | cons a l ih =>
    cases a with
    | host => exact le_refl _
    | consumer => exact (ih _).trans (consumerTick_ring_length_le s)

theorem State.Inv.preempt (h : s.Inv) : (preempt s).Inv := h.preemptBy

/-- Only a sample needs room in the ring buffer. -/
theorem State.Inv.runSubStep (h : s.Inv) {k : SubStep} (hroom : k = .sample → s.out.ring.length < s.cfg.ringSize) :
    (runSubStep k s).Inv := by
  cases k with
  | core => exact h.controlCore
  | cutoff => exact h.setOut h.ring
  | resonance => exact h.setOut h.ring
  | amplitude => exact h.setOut h.ring
  | sample => exact h.audioStep.setOut (by simpa using hroom rfl)

theorem runSubStep_ring_length (k : SubStep) (s : State) :
    (runSubStep k s).out.ring.length = s.out.ring.length + if k = .sample then 1 else 0 := by
  cases k <;> simp [runSubStep, ringPush]

theorem runSubStep_cfg (k : SubStep) (s : State) : (runSubStep k s).cfg = s.cfg := by
  cases k <;> simp [runSubStep, ringPush]

/-- Sub-steps keep the invariant when the ring buffer has room for all their samples; consumer steps only make more. -/
theorem State.Inv.runSubSteps {ks : List SubStep} (h : s.Inv)
    (hroom : s.out.ring.length + ks.count .sample ≤ s.cfg.ringSize) : (runSubSteps ks s).Inv := by
  induction ks generalizing s with
  | nil => exact h
  | cons k ks ih =>
    have hpre : (Machine.preempt s).out.ring.length ≤ s.out.ring.length := preemptBy_ring_length_le s.sched s
    have hcfg : (Machine.preempt s).cfg = s.cfg := by simp
    simp only [List.count_cons, beq_iff_eq] at hroom
    refine ih (h.preempt.runSubStep fun hk => ?_) ?_
    · rw [if_pos hk] at hroom
      rw [hcfg]
      omega
    · rw [runSubStep_cfg, runSubStep_ring_length, hcfg]
      omega

/-! ## The receiver -/

theorem nibbleAt_buf_wf {c : Config} {r r' : Receiver} {j : Nat} {lo : BitVec 4} (hr : r.nibbleAt c j lo = some r')
    (h : Memory.wf rxDefaultByte (patchSize c) r.buf = true) : Memory.wf rxDefaultByte (patchSize c) r'.buf = true := by
  unfold Receiver.nibbleAt at hr
  split at hr
  · next hj =>
    split at hr
    · cases hr; exact h
    · cases hr
      exact Memory.wf_write h (by unfold frameNibbles at hj; omega)
  split at hr
  · cases hr; exact h
  split at hr
  · cases hr; exact h
  · cases hr

theorem byteStep_buf_wf {c : Config} {r : Receiver} (b : Byte) (h : Memory.wf rxDefaultByte (patchSize c) r.buf = true) :
    Memory.wf rxDefaultByte (patchSize c) (r.byteStep c b).buf = true := by
  unfold Receiver.byteStep
  split
  · exact h
  · exact h
  · exact h
  · simp only [Receiver.headerStep]
    split
    · exact h
    · split <;> exact h
  · unfold Receiver.dataStep
    split
    · exact h
    · split
      · next r' hr => exact nibbleAt_buf_wf (r' := r') hr h
      · exact h

theorem State.Inv.commit (h : s.Inv) : (commit s).Inv := (h.setPatch Memory.wf_ofFn).recomputeAll

theorem State.Inv.sysexEndBody (h : s.Inv) : (sysexEndBody s).Inv := by
  simp only [Machine.sysexEndBody]
  split
  · split
    · exact h.commit.setRx h.commit.rxBuf_wf
    · exact h.setRx h.rxBuf_wf
  · exact h

/-! ## Commands and steps -/

theorem State.Inv.onChannel (h : s.Inv) (ch : BitVec 4) {f : State → State} (hf : (f s).Inv) : (onChannel ch f s).Inv := by
  unfold Machine.onChannel
  split
  · exact hf
  · exact h

theorem State.Inv.setCvInput (h : s.Inv) (n val : Byte) : (s.setEng (s.eng.setCv n.toNat val)).Inv := by
  unfold Engine.setCv
  split <;> exact h.setEng h.noiseCtr_lt h.rng_ne_zero

theorem State.Inv.control (h : s.Inv) : (Machine.runSubSteps cvWrites (Machine.controlCore s)).Inv :=
  h.controlCore.runSubSteps h.controlCore.ring

theorem count_sample_blockSteps (c : Config) : (blockSteps c).count .sample = c.blockSize := by
  simp [blockSteps, cvWrites]

/-- RENDER_BLOCK's check is the room that its samples need (R524). -/
theorem State.Inv.renderBlock (h : s.Inv) :
    (if roomForBlock s then Machine.runSubSteps (blockSteps s.cfg) s else s).Inv := by
  split
  · next hroom =>
    have hfit : s.cfg.blockSize ≤ s.cfg.ringSize - ringCount s := by simpa [roomForBlock] using hroom
    have hring : s.out.ring.length ≤ s.cfg.ringSize := h.ring
    exact h.runSubSteps (by rw [count_sample_blockSteps]; unfold ringCount at hfit; omega)
  · exact h

theorem State.Inv.exec {i : Instr} (h : s.Inv) (ht : exec i s = .next t) : t.Inv := by
  cases i <;> cases ht
  case nop => exact h
  case noteOn ch k v => exact h.onChannel ch (h.noteOnBody k v)
  case noteOff ch k v => exact h.onChannel ch (h.ctlNoteOff k)
  case controlChange ch k v => exact h.onChannel ch (h.controlChangeBody k v)
  case pitchBend ch v14 => exact h.onChannel ch (h.setEng h.noiseCtr_lt h.rng_ne_zero)
  case allSoundOff ch => exact h.onChannel ch h.allSoundOffBody
  case allNotesOff ch => exact h.onChannel ch h.allNotesOffBody
  case resetAllControllers ch => exact h.onChannel ch (h.setEng h.noiseCtr_lt h.rng_ne_zero)
  case omniModeOn ch => exact h.onChannel ch (h.setEng h.noiseCtr_lt h.rng_ne_zero)
  case omniModeOff ch => exact h.onChannel ch (h.setEng h.noiseCtr_lt h.rng_ne_zero)
  case sysexStart => exact h.setRx h.rxBuf_wf
  case sysexByte b => exact h.setRx (byteStep_buf_wf b h.rxBuf_wf)
  case sysexEnd => exact h.sysexEndBody
  case setParameter idx val => exact h.setParam idx.toNat val
  case getParameter idx => exact h.setEng h.noiseCtr_lt h.rng_ne_zero
  case clock => exact h.ctlClock
  case start => exact h.ctlStart
  case stop => exact h.ctlStop
  case control => exact h.control
  case audio => exact h.audioStep.setEng h.audioStep.noiseCtr_lt h.audioStep.rng_ne_zero
  case renderBlock => exact h.renderBlock
  case setCvInput n val => exact h.setCvInput n val

theorem State.Inv.runWord {w : Word} (h : s.Inv) (ht : runWord w s = .next t) : t.Inv := by
  unfold Machine.runWord at ht
  split at ht
  · exact h.exec ht
  · cases ht; exact h

theorem State.Inv.hostTurn (h : s.Inv) (ht : hostTurn s = .next t) : t.Inv := by
  unfold Machine.hostTurn fetchWord at ht
  cases hp : s.port with
  | nil =>
    rw [hp] at ht
    cases ht
    exact h
  | cons w rest =>
    rw [hp] at ht
    exact (h.setRun rest s.sched s.emitted).runWord ht

theorem State.Inv.turn (h : s.Inv) (ht : turn s = .next t) : t.Inv := by
  unfold Machine.turn at ht
  split at ht
  · cases ht
    exact (h.setRun _ _ _).consumerTick
  · exact (h.setRun _ _ _).hostTurn ht
  · exact h.hostTurn ht

/-- Settles O15: each agent's turn keeps `State.Inv`, by the rules of the operations it is made of. -/
theorem everyStepKeepsTheInvariant : Obligations.EveryStepKeepsTheInvariant := by
  intro s t h ht
  by_cases hwf : s.cfg.wf = true
  · rw [step_of_wf hwf] at ht
    exact h.turn ht
  · rw [step_of_not_wf hwf] at ht
    cases ht

end Sys2Proof.Machine
end

section
/-! The patch as the state family reads it (10_state.md): the commands that write it, its contents after reset, and its packed
fields as numbers. -/

namespace Sys2Proof.Machine

variable {s t : State}

/-! ## Who writes the patch -/

theorem runSubStep_patch (k : SubStep) (s : State) : (runSubStep k s).patch = s.patch := by
  cases k <;> simp [runSubStep, ringPush]

theorem runSubSteps_patch (ks : List SubStep) (s : State) : (runSubSteps ks s).patch = s.patch := by
  induction ks generalizing s with
  | nil => rfl
  | cons k ks ih =>
    rw [runSubSteps, ih, runSubStep_patch]
    simp

/-- A controller that R427 maps to no parameter leaves the patch. -/
theorem controlChangeBody_patch_of_unmapped {k : BitVec 7} (v : BitVec 7) (hk : k ∉ [5, 6, 71, 72, 73, 74]) :
    (controlChangeBody k v s).patch = s.patch := by
  have hne : ∀ n : BitVec 7, n ∈ [5, 6, 71, 72, 73, 74] → k.toNat ≠ n.toNat :=
    fun n hn he => hk (BitVec.eq_of_toNat_eq he ▸ hn)
  unfold controlChangeBody
  split
  · rfl
  · next h => exact absurd h (hne 5 (by decide))
  · next h => exact absurd h (hne 6 (by decide))
  · next h => exact absurd h (hne 71 (by decide))
  · next h => exact absurd h (hne 72 (by decide))
  · next h => exact absurd h (hne 73 (by decide))
  · next h => exact absurd h (hne 74 (by decide))
  · rfl
  · rfl
  · rfl

theorem sysexEndBody_patch_of_not_ok (h : transferOk s ≠ true) : (sysexEndBody s).patch = s.patch := by
  simp only [sysexEndBody, if_neg h]
  split <;> rfl

/-- A channel command leaves what its body leaves. -/
theorem onChannel_patch {f : State → State} (ch : BitVec 4) (h : accept s ch = true → (f s).patch = s.patch) :
    (onChannel ch f s).patch = s.patch := by
  unfold onChannel
  split
  · next ha => exact h ha
  · rfl

theorem noteOnBody_patch (k v : BitVec 7) (s : State) : (noteOnBody k v s).patch = s.patch := by
  unfold noteOnBody
  split <;> simp

theorem ctlClock_patch (s : State) : (ctlClock s).patch = s.patch := by
  unfold ctlClock
  split
  · split <;> rfl
  · rfl

theorem renderBlock_patch (s : State) :
    (if roomForBlock s then runSubSteps (blockSteps s.cfg) s else s).patch = s.patch := by
  split
  · exact runSubSteps_patch _ s
  · rfl

/-- Settles O9: every command but the three named ones leaves the patch by its frame. -/
theorem onlyParameterPathsWriteThePatch : Obligations.OnlyParameterPathsWriteThePatch := by
  refine ⟨fun i s t ht hne => ?_, fun s => by simp⟩
  cases i <;> cases ht
  case setParameter idx val => exact .inl ⟨idx, val, rfl⟩
  case controlChange ch k v =>
    refine .inr (.inl ⟨ch, k, v, rfl, ?_⟩)
    by_contra hcon
    exact hne (onChannel_patch ch fun ha => controlChangeBody_patch_of_unmapped v fun hk => hcon ⟨ha, hk⟩)
  case sysexEnd =>
    refine .inr (.inr ⟨rfl, ?_⟩)
    by_contra hcon
    exact hne (sysexEndBody_patch_of_not_ok hcon)
  case noteOn ch k v => exact absurd (onChannel_patch ch fun _ => noteOnBody_patch k v s) hne
  case noteOff ch k _ => exact absurd (onChannel_patch ch fun _ => by simp) hne
  case pitchBend ch _ | allSoundOff ch | allNotesOff ch | resetAllControllers ch | omniModeOn ch | omniModeOff ch =>
    exact absurd (onChannel_patch ch fun _ => rfl) hne
  case clock => exact absurd (ctlClock_patch s) hne
  case control => exact absurd ((runSubSteps_patch _ _).trans (by simp)) hne
  case audio => exact absurd (by simp) hne
  case renderBlock => exact absurd (renderBlock_patch s) hne
  case nop | sysexStart | sysexByte _ | getParameter _ | start | stop | setCvInput _ _ => exact absurd rfl hne

/-! ## The waveform catalog -/

theorem highByte_toNat (p : Half) : (p.extractLsb' 8 8).toNat = p.toNat / 256 := by
  have := p.isLt
  simp only [BitVec.extractLsb'_toNat, Nat.shiftRight_eq_div_pow]
  omega

theorem midByte_toNat (p : Half) : (p.extractLsb' 7 8).toNat = p.toNat / 128 % 256 := by
  simp [BitVec.extractLsb'_toNat, Nat.shiftRight_eq_div_pow]

theorem getLsbD_15_iff (p : Half) : p.getLsbD 15 = true ↔ 32768 ≤ p.toNat := by
  have := p.isLt
  simp only [BitVec.getLsbD, Nat.testBit_eq_decide_div_mod_eq, decide_eq_true_eq]
  omega

theorem wave_of_numOscAlgs_le {c : Config} {alg : Byte} (h : c.numOscAlgs ≤ alg.toNat) (phase : Half) (aux : Byte) :
    wave c alg phase aux = 128 := if_pos h

theorem wave_zero (c : Config) (phase : Half) (aux : Byte) : wave c 0 phase aux = 128 := by
  unfold wave
  split <;> rfl

theorem wave_saw {c : Config} (h : 1 < c.numOscAlgs) (phase : Half) (aux : Byte) :
    wave c 1 phase aux = phase.extractLsb' 8 8 := if_neg (Nat.not_le.mpr h)

theorem wave_square {c : Config} (h : 2 < c.numOscAlgs) (phase : Half) (aux : Byte) :
    wave c 2 phase aux = if (phase.extractLsb' 8 8).toNat < 128 + aux.toNat / 2 then 255 else 0 :=
  if_neg (Nat.not_le.mpr h)

theorem wave_triangle {c : Config} (h : 3 < c.numOscAlgs) (phase : Half) (aux : Byte) :
    wave c 3 phase aux = if phase.getLsbD 15 then 255 - phase.extractLsb' 7 8 else phase.extractLsb' 7 8 :=
  if_neg (Nat.not_le.mpr h)

theorem wave_further {c : Config} {alg : Byte} (h3 : 3 < alg.toNat) (h : alg.toNat < c.numOscAlgs) (phase : Half)
    (aux : Byte) : wave c alg phase aux = Config.waveExt alg phase aux := by
  unfold wave
  rw [if_neg (Nat.not_le.mpr h)]
  split
  case h_5 => rfl
  all_goals omega

theorem wave_triangle_toNat {c : Config} (h : 3 < c.numOscAlgs) (phase : Half) (aux : Byte) :
    (wave c 3 phase aux).toNat =
      if phase.toNat < 32768 then phase.toNat / 128 else 255 - (phase.toNat - 32768) / 128 := by
  have hlt := phase.isLt
  rw [wave_triangle h]
  by_cases hhigh : phase.getLsbD 15 = true
  · have hge := (getLsbD_15_iff phase).mp hhigh
    rw [if_pos hhigh, if_neg (Nat.not_lt.mpr hge), BitVec.toNat_sub, midByte_toNat]
    show (2 ^ 8 - phase.toNat / 128 % 256 + 255) % 2 ^ 8 = _
    omega
  · have hlow : phase.toNat < 32768 := Nat.not_le.mp fun hge => hhigh ((getLsbD_15_iff phase).mpr hge)
    rw [if_neg hhigh, if_pos hlow, midByte_toNat]
    omega

/-- Settles O49: the rows of `wave` under its bound, read as numbers. -/
theorem waveformCatalog : Obligations.WaveformCatalog := fun c phase aux _ =>
  ⟨fun h => wave_of_numOscAlgs_le h phase aux, wave_zero c phase aux,
    fun h => by rw [wave_saw h, highByte_toNat],
    fun h => by rw [wave_square h, highByte_toNat],
    fun h => wave_triangle_toNat h phase aux,
    fun h3 h => wave_further h3 h phase aux⟩

/-! ## The next command -/

theorem decode_of_reserved {w : Word} (h : 0x16 ≤ (wordOp w).toNat) : decode w = .reject (.reserved (wordOp w)) := by
  unfold decode
  split
  case h_23 => rfl
  all_goals omega

theorem turn_of_hostIsNext (h : s.hostIsNext) : turn s = hostTurn { s with sched := s.sched.tail } := by
  unfold turn
  rcases h with h | ⟨rest, h⟩
  · cases s
    cases h
    rfl
  · rw [h]
    rfl

theorem turn_of_presented {w : Word} {rest : List Word} (hhost : s.hostIsNext) (hport : s.port = w :: rest) :
    turn s = runWord w { s with port := rest, sched := s.sched.tail } := by
  rw [turn_of_hostIsNext hhost]
  simp only [hostTurn, fetchWord, hport]

theorem turn_of_silent (hhost : s.hostIsNext) (hport : s.port = []) : turn s = .next { s with sched := s.sched.tail } := by
  rw [turn_of_hostIsNext hhost]
  simp only [hostTurn, fetchWord, hport]

theorem runWord_of_ok {w : Word} {i : Instr} (h : decode w = .ok i) (s : State) : runWord w s = exec i s := by
  unfold runWord
  rw [h]

theorem runWord_of_reserved {w : Word} (h : 0x16 ≤ (wordOp w).toNat) (s : State) : runWord w s = .next s := by
  unfold runWord
  rw [decode_of_reserved h]
  rfl

theorem turn_of_consumer {rest : List Agent} (h : s.sched = .consumer :: rest) :
    turn s = .next (consumerTick { s with sched := rest }) := by
  unfold turn
  rw [h]

/-- Settles O5: a well-formed state takes the turn that its schedule names. -/
theorem stepRunsTheNextCommand : Obligations.StepRunsTheNextCommand := by
  intro s hwf
  rw [step_of_wf hwf]
  refine ⟨fun w rest i hhost hport hdec => ?_, fun w rest hhost hport hop => ?_, fun hhost hport => ?_,
    fun rest hsched => turn_of_consumer hsched⟩
  · rw [turn_of_presented hhost hport, runWord_of_ok hdec]
  · rw [turn_of_presented hhost hport, runWord_of_reserved hop]
  · exact turn_of_silent hhost hport

/-! ## The patch after reset -/

theorem readPatch_resetOf (c : Config) (i : Nat) : readPatch (State.resetOf c) i = defaultPatchByte c i := rfl

theorem defaultPatchByte_param (c : Config) {i : Nat} (h : i < 31) : defaultPatchByte c i = defaultParams.getD i 0 := if_pos h

theorem defaultPatchByte_slot (c : Config) {j : Nat} (h : j < 2 * c.numModSlots) : defaultPatchByte c (31 + j) = 0 := by
  unfold defaultPatchByte offSeq
  rw [if_neg (by omega), if_pos (by omega)]

/-- The sequencer and name regions follow the slots, wherever those end. -/
theorem defaultPatchByte_tail (c : Config) (k : Nat) :
    defaultPatchByte c (31 + 2 * c.numModSlots + k) = (defaultSeq ++ defaultName).getD k 0 := by
  unfold defaultPatchByte offName offSeq
  have hlen : defaultSeq.length = 14 := rfl
  rw [if_neg (by omega), if_neg (by omega)]
  by_cases hk : k < 14
  · rw [if_pos (by omega), List.getD_append _ _ _ _ (by omega), Nat.add_sub_cancel_left]
  · rw [if_neg (by omega), List.getD_append_right _ _ _ _ (by omega), hlen, Nat.add_sub_add_left]

theorem validBuf_resetOf (c : Config) : validBuf c (readPatch (State.resetOf c)) = true := by
  have hparams : ∀ i < 31, (defaultParams.getD i 0).toNat < 0x80 := by decide
  have hname : ∀ i < 8, ((defaultSeq ++ defaultName).getD (14 + i) 0).toNat < 0x80 := by decide
  simp only [validBuf, Bool.and_eq_true, List.all_eq_true, List.mem_range, decide_eq_true_eq]
  refine ⟨fun i hi => ?_, fun i hi => ?_⟩
  · rw [readPatch_resetOf, defaultPatchByte_param c hi]
    exact hparams i hi
  · rw [readPatch_resetOf, offName, offSeq, Nat.add_assoc, defaultPatchByte_tail]
    exact hname i hi

/-- Settles O18: DEFAULT_PATCH region by region; with twelve slots the regions meet at 31 and 55. -/
theorem defaultPatchAfterReset : Obligations.DefaultPatchAfterReset := by
  intro c s bytes
  have hparams : ∀ i < 31, defaultParams.getD i 0 = bytes.getD i 0 := by decide
  have hslots : ∀ j < 24, bytes.getD (31 + j) 0 = 0 := by decide
  have htail : ∀ k < 22, (defaultSeq ++ defaultName).getD k 0 = bytes.getD (55 + k) 0 := by decide
  have hp : ∀ i < 31, readPatch s i = bytes.getD i 0 := fun i hi => (defaultPatchByte_param c hi).trans (hparams i hi)
  have ht : ∀ k < 22, readPatch s (31 + 2 * c.numModSlots + k) = bytes.getD (55 + k) 0 := fun k hk =>
    (defaultPatchByte_tail c k).trans (htail k hk)
  refine ⟨rfl, by simp [byteSum, bytes], fun h12 => ⟨by simp only [patchSize, offName, offSeq, h12], fun i hi => ?_⟩, hp,
    fun j hj => defaultPatchByte_slot c hj, ht, validBuf_resetOf c⟩
  by_cases h31 : i < 31
  · exact hp i h31
  obtain ⟨j, rfl⟩ := Nat.exists_eq_add_of_le (Nat.not_lt.mp h31)
  by_cases h24 : j < 24
  · exact (defaultPatchByte_slot c (by omega)).trans (hslots j h24).symm
  obtain ⟨k, rfl⟩ := Nat.exists_eq_add_of_le (Nat.not_lt.mp h24)
  have hk := ht k (by omega)
  rwa [h12, show 31 + 2 * 12 + k = 31 + (24 + k) by omega] at hk

/-! ## Packed fields -/

theorem lowNibble_toNat (b : Byte) : (b.extractLsb' 0 4).toNat = b.toNat % 16 := by
  simp [BitVec.extractLsb'_toNat]

theorem highNibble_toNat (b : Byte) : (b.extractLsb' 4 4).toNat = b.toNat / 16 := by
  have := b.isLt
  simp only [BitVec.extractLsb'_toNat, Nat.shiftRight_eq_div_pow]
  omega

theorem arpMode_eq (s : State) :
    arpMode s =
      if seqArpMode s = 1 then .up
      else if seqArpMode s = 2 then .down
      else if seqArpMode s = 3 then .upDown
      else if seqArpMode s = 4 then .random
      else .off := by
  unfold arpMode
  split
  · next h => rw [h]; rfl
  · next h => rw [h]; rfl
  · next h => rw [h]; rfl
  · next h => rw [h]; rfl
  · next h1 h2 h3 h4 => rw [if_neg h1, if_neg h2, if_neg h3, if_neg h4]

theorem stepValue_toNat (s : State) (k : Nat) :
    (stepValue s k).toNat =
      if k % 2 = 0 then (readPatch s (offSeq s.cfg + 6 + k / 2)).toNat % 16
      else (readPatch s (offSeq s.cfg + 6 + k / 2)).toNat / 16 := by
  unfold stepValue
  by_cases hk : k % 2 = 0
  · rw [if_pos hk, if_neg (by omega), lowNibble_toNat]
  · rw [if_neg hk, if_pos (by omega), highNibble_toNat]

theorem sext8_eq (b : Byte) : sext8 b = if b.toNat < 128 then (b.toNat : Int) else b.toNat - 256 := by
  unfold sext8
  rw [BitVec.toInt_eq_toNat_cond]
  split <;> split <;> omega

/-- The additive destinations in id order (R52). -/
def destsInOrder : List Dest :=
  [.cutoff, .resonance, .pwm1, .pwm2, .osc1Pitch, .osc2Pitch, .finePitch, .mixBalance, .noise, .sub]

/-- The modulation sources in id order (R50, R51). -/
def sourcesInOrder : List Source :=
  [.lfo1, .lfo2, .wheel, .random, .bend, .seqValue, .seqGate, .cv1, .cv2, .cv3, .cv4, .env1, .env2, .pitch, .velocity, .gate]

theorem target_ofNibble_vca_iff : ∀ n : BitVec 4, Target.ofNibble n = .vca ↔ n.toNat = 10 := by decide

theorem target_ofNibble_reserved_iff : ∀ n : BitVec 4, Target.ofNibble n = .reserved ↔ 11 ≤ n.toNat := by decide

theorem target_ofNibble_additive_iff (d : Dest) :
    ∀ n : BitVec 4, Target.ofNibble n = .additive d ↔ destsInOrder[n.toNat]? = some d := by
  cases d <;> decide

theorem source_ofNibble : ∀ n : BitVec 4, sourcesInOrder[n.toNat]? = some (Source.ofNibble n) := by decide

theorem bias_ofNibble :
    ∀ n : BitVec 4, bias (Source.ofNibble n) = if n.toNat = 0 ∨ n.toNat = 1 ∨ n.toNat = 4 then 128 else 0 := by decide

/-- The source table of a state, in id order. -/
theorem sourceValue_getElem (s : State) (n : BitVec 4) :
    (sourcesInOrder.map (sourceValue s))[n.toNat]? = some (sourceValue s (Source.ofNibble n)) := by
  rw [List.getElem?_map, source_ofNibble]
  rfl

/-- Settles O33: each reading is a nibble, a sign extension or a clip of its byte. -/
theorem patchFieldReadings : Obligations.PatchFieldReadings := by
  intro s byte seq
  refine ⟨beq_iff_eq, arpMode_eq s, ?_, stepValue_toNat s, fun i => ?_⟩
  · show min (max (byte (seq + 2)) 1) 4 = _
    omega
  · intro src dst
    have hsrc : ((readPatch s (offRoute i)).extractLsb' 0 4).toNat = src := lowNibble_toNat _
    have hdst : ((readPatch s (offRoute i)).extractLsb' 4 4).toNat = dst := highNibble_toNat _
    rw [← hsrc, ← hdst]
    exact ⟨sext8_eq _, target_ofNibble_vca_iff _, target_ofNibble_reserved_iff _,
      fun d => target_ofNibble_additive_iff d _, sourceValue_getElem s _, bias_ofNibble _⟩

end Sys2Proof.Machine
end

section
/-! Decoding of what the encoder writes (R140 to R147): each operand field of a word read back from its place in the
encoder's concatenation, then each opcode's row of `decode`. -/

namespace Sys2Proof

/-! ## The fields of an encoded word -/

theorem wordOp_encode (i : Instr) : wordOp (encode i) = i.opcode := by
  cases i with
  | nop => exact Laws.Opcode.nop.1
  | noteOn ch k v => exact (Laws.Opcode.noteOn ch k v).1
  | noteOff ch k v => exact (Laws.Opcode.noteOff ch k v).1
  | controlChange ch k v => exact (Laws.Opcode.controlChange ch k v).1
  | pitchBend ch v14 => exact (Laws.Opcode.pitchBend ch v14).1
  | allSoundOff ch => exact (Laws.Opcode.allSoundOff ch).1
  | allNotesOff ch => exact (Laws.Opcode.allNotesOff ch).1
  | resetAllControllers ch => exact (Laws.Opcode.resetAllControllers ch).1
  | omniModeOn ch => exact (Laws.Opcode.omniModeOn ch).1
  | omniModeOff ch => exact (Laws.Opcode.omniModeOff ch).1
  | sysexStart => exact Laws.Opcode.sysexStart.1
  | sysexByte b => exact (Laws.Opcode.sysexByte b).1
  | sysexEnd => exact Laws.Opcode.sysexEnd.1
  | setParameter idx val => exact (Laws.Opcode.setParameter idx val).1
  | getParameter idx => exact (Laws.Opcode.getParameter idx).1
  | clock => exact Laws.Opcode.clock.1
  | start => exact Laws.Opcode.start.1
  | stop => exact Laws.Opcode.stop.1
  | control => exact Laws.Opcode.control.1
  | audio => exact Laws.Opcode.audio.1
  | renderBlock => exact Laws.Opcode.renderBlock.1
  | setCvInput n val => exact (Laws.Opcode.setCvInput n val).1

/-! ## The operand fields of each layout of R141 -/

section
variable (op : Byte) (ch : BitVec 4) (k v : BitVec 7) (v14 : BitVec 14) (idx : Half) (n b : Byte)

theorem wordCh_of_channelLayout : wordCh (op ++ 0#4 ++ ch ++ 0#16) = ch :=
  (BitVec.extractLsb'_append_eq_of_le (le_refl 16)).trans BitVec.extractLsb'_append_eq_right

theorem fields_of_noteLayout :
    wordCh (op ++ 0#4 ++ ch ++ 0#1 ++ k ++ 0#1 ++ v) = ch ∧ wordK (op ++ 0#4 ++ ch ++ 0#1 ++ k ++ 0#1 ++ v) = k ∧
      wordV (op ++ 0#4 ++ ch ++ 0#1 ++ k ++ 0#1 ++ v) = v := by
  refine ⟨?_, ?_, BitVec.extractLsb'_append_eq_right⟩
  · show (op ++ 0#4 ++ ch ++ 0#1 ++ k ++ 0#1 ++ v).extractLsb' 16 4 = ch
    simp only [BitVec.extractLsb'_append_eq_of_le, Nat.reduceLeDiff, Nat.reduceSub, BitVec.extractLsb'_append_eq_right]
  · show (op ++ 0#4 ++ ch ++ 0#1 ++ k ++ 0#1 ++ v).extractLsb' 8 7 = k
    simp only [BitVec.extractLsb'_append_eq_of_le, Nat.reduceLeDiff, Nat.reduceSub, BitVec.extractLsb'_append_eq_right]

theorem fields_of_bendLayout :
    wordCh (op ++ 0#4 ++ ch ++ 0#2 ++ v14) = ch ∧ wordV14 (op ++ 0#4 ++ ch ++ 0#2 ++ v14) = v14 := by
  refine ⟨?_, BitVec.extractLsb'_append_eq_right⟩
  show (op ++ 0#4 ++ ch ++ 0#2 ++ v14).extractLsb' 16 4 = ch
  simp only [BitVec.extractLsb'_append_eq_of_le, Nat.reduceLeDiff, Nat.reduceSub, BitVec.extractLsb'_append_eq_right]

theorem wordB_of_byteLayout : wordB (op ++ 0#16 ++ b) = b := BitVec.extractLsb'_append_eq_right

theorem fields_of_parameterLayout : wordIdx (op ++ idx ++ b) = idx ∧ wordB (op ++ idx ++ b) = b := by
  refine ⟨?_, BitVec.extractLsb'_append_eq_right⟩
  show (op ++ idx ++ b).extractLsb' 8 16 = idx
  simp only [BitVec.extractLsb'_append_eq_of_le, Nat.reduceLeDiff, Nat.reduceSub, BitVec.extractLsb'_append_eq_right]

theorem fields_of_cvLayout : wordN (op ++ n ++ 0#8 ++ b) = n ∧ wordB (op ++ n ++ 0#8 ++ b) = b := by
  refine ⟨?_, BitVec.extractLsb'_append_eq_right⟩
  show (op ++ n ++ 0#8 ++ b).extractLsb' 16 8 = n
  simp only [BitVec.extractLsb'_append_eq_of_le, Nat.reduceLeDiff, Nat.reduceSub, BitVec.extractLsb'_append_eq_right]

end

/-! ## The decoder on the encoder's words and on their bytes -/

theorem decode_encode (i : Instr) : decode (encode i) = .ok i := by
  unfold decode
  rw [wordOp_encode]
  cases i with
  | noteOn ch k v => exact congrArg Decoded.ok ((Instr.noteOn.injEq ..).mpr (fields_of_noteLayout 0x01 ch k v))
  | noteOff ch k v => exact congrArg Decoded.ok ((Instr.noteOff.injEq ..).mpr (fields_of_noteLayout 0x02 ch k v))
  | controlChange ch k v => exact congrArg Decoded.ok ((Instr.controlChange.injEq ..).mpr (fields_of_noteLayout 0x03 ch k v))
  | pitchBend ch v14 => exact congrArg Decoded.ok ((Instr.pitchBend.injEq ..).mpr (fields_of_bendLayout 0x04 ch v14))
  | allSoundOff ch => exact congrArg (Decoded.ok ∘ Instr.allSoundOff) (wordCh_of_channelLayout 0x05 ch)
  | allNotesOff ch => exact congrArg (Decoded.ok ∘ Instr.allNotesOff) (wordCh_of_channelLayout 0x06 ch)
  | resetAllControllers ch => exact congrArg (Decoded.ok ∘ Instr.resetAllControllers) (wordCh_of_channelLayout 0x07 ch)
  | omniModeOn ch => exact congrArg (Decoded.ok ∘ Instr.omniModeOn) (wordCh_of_channelLayout 0x08 ch)
  | omniModeOff ch => exact congrArg (Decoded.ok ∘ Instr.omniModeOff) (wordCh_of_channelLayout 0x09 ch)
  | sysexByte b => exact congrArg (Decoded.ok ∘ Instr.sysexByte) (wordB_of_byteLayout 0x0B b)
  | setParameter idx val =>
    exact congrArg Decoded.ok ((Instr.setParameter.injEq ..).mpr (fields_of_parameterLayout 0x0D idx val))
  | getParameter idx => exact congrArg (Decoded.ok ∘ Instr.getParameter) (fields_of_parameterLayout 0x0E idx 0#8).1
  | setCvInput n val => exact congrArg Decoded.ok ((Instr.setCvInput.injEq ..).mpr (fields_of_cvLayout 0x15 n val))
  | nop | sysexStart | sysexEnd | clock | start | stop | control | audio | renderBlock => rfl

/-- The four bytes of a word, joined again, are the word (R104). -/
theorem wordOfBytes_extract (w : Word) :
    wordOfBytes (w.extractLsb' 24 8) (w.extractLsb' 16 8) (w.extractLsb' 8 8) (w.extractLsb' 0 8) = w := by
  unfold wordOfBytes
  rw [BitVec.extractLsb'_append_extractLsb'_eq_extractLsb' (show 24 = 16 + 8 from rfl),
    BitVec.extractLsb'_append_extractLsb'_eq_extractLsb' (show 16 = 8 + 8 from rfl),
    BitVec.extractLsb'_append_extractLsb'_eq_extractLsb' (show 8 = 0 + 8 from rfl)]
  exact BitVec.extractLsb'_eq_self

theorem decodeBytes_bytesOfWord (w : Word) (rest : List Byte) : decodeBytes (bytesOfWord w ++ rest) = (decode w, rest) := by
  show (decode (wordOfBytes _ _ _ _), rest) = _
  rw [wordOfBytes_extract]

/-- Settles O2: the rows of `decode` by opcode, each operand read back from its place in the encoder's concatenation. -/
theorem decodeOfEncodeIsTheCommand : Obligations.DecodeOfEncodeIsTheCommand := fun i rest =>
  ⟨decode_encode i, by rw [decodeBytes_bytesOfWord, decode_encode]⟩

end Sys2Proof
end

section
/-! The host's part of the state under every command (47_buffering.md R112, R525, R531): each command's operation commutes
with `State.hostView`, so equal host views stay equal whatever the consumer's registers and the schedule are. -/

namespace Sys2Proof.Machine

variable {s s' : State}

/-- An operation that commutes with taking the host's part carries equal host parts to equal host parts. -/
theorem hostView_congr (f : State → State) (hf : ∀ x, f x.hostView = (f x).hostView) (h : s.hostView = s'.hostView) :
    (f s).hostView = (f s').hostView := by
  rw [← hf, h, hf]

/-! ## The commands' operations on the host's part -/

theorem ctlNoteOn_hostView (s : State) (n v : BitVec 7) : ctlNoteOn s.hostView n v = (ctlNoteOn s n v).hostView :=
  hostView_ite Iff.rfl rfl rfl

theorem ctlNoteOff_hostView (s : State) (n : BitVec 7) : ctlNoteOff s.hostView n = (ctlNoteOff s n).hostView := by
  simp only [ctlNoteOff, ctl_hostView]
  refine hostView_ite Iff.rfl ?_ rfl
  cases (heldRemove s.ctl.held n).getLast? with
  | none => rfl
  | some h => exact hostView_ite Iff.rfl rfl rfl

theorem noteOnBody_hostView (k v : BitVec 7) (s : State) : noteOnBody k v s.hostView = (noteOnBody k v s).hostView :=
  hostView_ite Iff.rfl (ctlNoteOff_hostView s k) (ctlNoteOn_hostView s k v)

theorem updateLfo_hostView (s : State) (i : LfoId) : updateLfo s.hostView i = (updateLfo s i).hostView := by
  cases i <;> rfl

theorem recompute_hostView (s : State) (idx : Nat) : recompute s.hostView idx = (recompute s idx).hostView := by
  unfold recompute
  refine hostView_ite Iff.rfl rfl (hostView_ite Iff.rfl rfl (hostView_ite Iff.rfl rfl (hostView_ite Iff.rfl ?_
    (hostView_ite Iff.rfl ?_ rfl))))
  · exact updateLfo_hostView s .lfo1
  · exact updateLfo_hostView s .lfo2

theorem recomputeAll_hostView (s : State) : recomputeAll s.hostView = (recomputeAll s).hostView := by
  unfold recomputeAll
  rw [← updateLfo_hostView, ← updateLfo_hostView]
  rfl

theorem setParam_hostView (s : State) (idx : Nat) (val : Byte) : setParam s.hostView idx val = (setParam s idx val).hostView :=
  hostView_ite Iff.rfl (recompute_hostView (writePatch s idx val) idx) rfl

theorem controlChangeBody_hostView (k v : BitVec 7) (s : State) :
    controlChangeBody k v s.hostView = (controlChangeBody k v s).hostView := by
  unfold controlChangeBody
  split
  · rfl
  · exact setParam_hostView s _ _
  · exact setParam_hostView s _ _
  · exact setParam_hostView s _ _
  · exact setParam_hostView s _ _
  · exact setParam_hostView s _ _
  · exact setParam_hostView s _ _
  · rfl
  · rfl
  · rfl

theorem onChannel_hostView (ch : BitVec 4) {f : State → State} (hf : ∀ x, f x.hostView = (f x).hostView) (s : State) :
    onChannel ch f s.hostView = (onChannel ch f s).hostView :=
  hostView_ite Iff.rfl (hf s) rfl

theorem ctlClock_hostView (s : State) : ctlClock s.hostView = (ctlClock s).hostView :=
  hostView_ite Iff.rfl (hostView_ite Iff.rfl rfl rfl) rfl

theorem commit_hostView (s : State) : commit s.hostView = (commit s).hostView := 
  recomputeAll_hostView { s with patch := Memory.ofFn (defaultPatchByte s.cfg) (patchSize s.cfg) (readRx s) }

theorem sysexEndBody_hostView (s : State) : sysexEndBody s.hostView = (sysexEndBody s).hostView := by
  unfold sysexEndBody
  refine hostView_ite Iff.rfl (hostView_ite Iff.rfl ?_ rfl) rfl
  rw [commit_hostView]
  rfl

/-- A byte in the response register, as GET_PARAMETER and AUDIO leave one (R156). -/
def State.respond (s : State) (r : Byte) : State := s.setEng { s.eng with resp := r }

theorem execAudio_eq (s : State) : exec .audio s = .next ((audioStep s).1.respond (audioStep s).2) := rfl

theorem respond_hostView (s : State) (r : Byte) : s.hostView.respond r = (s.respond r).hostView := rfl

theorem audio_hostView (s : State) :
    (audioStep s.hostView).1.respond (audioStep s.hostView).2 = ((audioStep s).1.respond (audioStep s).2).hostView := by
  rw [audioStep_hostView, respond_hostView]

/-! ## The commands with interleaving points -/

/-- RENDER_BLOCK depends on the consumer through its check for room only (R524). -/
theorem renderBlock_hostView_congr (h : s.hostView = s'.hostView) (hroom : roomForBlock s = roomForBlock s') :
    (if roomForBlock s then runSubSteps (blockSteps s.cfg) s else s).hostView =
      (if roomForBlock s' then runSubSteps (blockSteps s'.cfg) s' else s').hostView := by
  obtain ⟨hcfg, -⟩ := hostView_fields h
  rw [hroom, hcfg]
  split
  · exact hostView_runSubSteps_congr _ h
  · exact h

/-- Settles O13: a command is an operation that commutes with `State.hostView`, or a run of such sub-steps. -/
theorem hostEffectsDoNotDependOnTheConsumer : Obligations.HostEffectsDoNotDependOnTheConsumer := by
  intro i s s' t t' h hroom ht ht'
  cases i <;> cases ht <;> cases ht'
  case nop => exact h
  case noteOn ch k v => exact hostView_congr _ (onChannel_hostView ch (noteOnBody_hostView k v)) h
  case noteOff ch k v => exact hostView_congr _ (onChannel_hostView ch (ctlNoteOff_hostView · k)) h
  case controlChange ch k v => exact hostView_congr _ (onChannel_hostView ch (controlChangeBody_hostView k v)) h
  case pitchBend ch _ | allSoundOff ch | allNotesOff ch | resetAllControllers ch | omniModeOn ch | omniModeOff ch =>
    exact hostView_congr _ (onChannel_hostView ch fun _ => rfl) h
  case sysexStart => exact hostView_congr (fun x => x.setRx x.rx.begin) (fun _ => rfl) h
  case sysexByte b => exact hostView_congr (fun x => x.setRx (x.rx.byteStep x.cfg b)) (fun _ => rfl) h
  case sysexEnd => exact hostView_congr _ sysexEndBody_hostView h
  case setParameter idx val => exact hostView_congr (setParam · idx.toNat val) (setParam_hostView · idx.toNat val) h
  case getParameter idx => exact hostView_congr (fun x => x.respond (getParam x idx.toNat)) (fun _ => rfl) h
  case clock => exact hostView_congr _ ctlClock_hostView h
  case start => exact hostView_congr ctlStart (fun _ => rfl) h
  case stop => exact hostView_congr ctlStop (fun _ => rfl) h
  case control => exact hostView_runSubSteps_congr cvWrites (hostView_congr _ controlCore_hostView h)
  case audio => exact hostView_congr (fun x => (audioStep x).1.respond (audioStep x).2) audio_hostView h
  case renderBlock => exact renderBlock_hostView_congr h (hroom rfl)
  case setCvInput n val => exact hostView_congr (fun x => x.setEng (x.eng.setCv n.toNat val)) (fun _ => rfl) h

end Sys2Proof.Machine
end

section
/-! The cached copies of the patch (10_state.md R119): which registers they are, what each operation does to them, and that a
parameter write recomputes every copy whose bytes it touches. -/

namespace Sys2Proof.Machine

variable {s t u : State}

/-! ## The cached registers of the voice -/

/-- An envelope's cached registers. -/
def Envelope.times (e : Envelope) : Nat × Nat × Nat × BitVec 14 := (e.incA, e.incD, e.incR, e.sus)

/-- The voice's cached registers. -/
def Voice.cached (v : Voice) : Byte × Byte × (Nat × Nat × Nat × BitVec 14) × (Nat × Nat × Nat × BitVec 14) :=
  (v.osc1.alg, v.osc2.alg, v.env1.times, v.env2.times)

theorem Envelope.times_trigger (e : Envelope) (st : Stage) : (e.trigger st).times = e.times := by
  unfold Envelope.trigger
  split <;> rfl

theorem Envelope.times_render (e : Envelope) : e.render.times = e.times := by
  unfold Envelope.render
  split <;> rfl

theorem Voice.cached_congr {v w : Voice} (h1 : w.osc1.alg = v.osc1.alg) (h2 : w.osc2.alg = v.osc2.alg)
    (h3 : w.env1.times = v.env1.times) (h4 : w.env2.times = v.env2.times) : w.cached = v.cached := by
  simp only [Voice.cached, h1, h2, h3, h4]

theorem Voice.cached_release (v : Voice) : v.release.cached = v.cached :=
  Voice.cached_congr rfl rfl (v.env1.times_trigger _) (v.env2.times_trigger _)

theorem Voice.cached_renderEnvelopes (v : Voice) : v.renderEnvelopes.cached = v.cached :=
  Voice.cached_congr rfl rfl v.env1.times_render v.env2.times_render

theorem Voice.cached_glide (v : Voice) : v.glide.cached = v.cached := by
  rw [glide_eq]
  rfl

theorem Voice.cached_startGlide (v : Voice) (ticks : Nat) (wasDead : Bool) :
    (v.startGlide ticks wasDead).cached = v.cached := by
  rw [startGlide_eq]
  rfl

theorem Voice.cached_startEnvelopes (v : Voice) (legato : Bool) : (v.startEnvelopes legato).cached = v.cached := by
  unfold Voice.startEnvelopes
  split
  · rfl
  · exact Voice.cached_congr rfl rfl (v.env1.times_trigger _) (v.env2.times_trigger _)

theorem cached_voiceTrigger (s : State) (n : Byte) (vel : BitVec 7) (legato : Bool) :
    (voiceTrigger s n vel legato).voice.cached = s.voice.cached :=
  (Voice.cached_startGlide _ _ _).trans (Voice.cached_startEnvelopes _ _)

theorem Voice.cached_hardSync (v : Voice) (opt : Combine) : (v.hardSync opt).cached = v.cached := by
  unfold Voice.hardSync
  split <;> rfl

/-! ## One rule per state operation -/

theorem State.CachesCoherent.setVoice (h : s.CachesCoherent) {v : Voice} (hv : v.cached = s.voice.cached) :
    (s.setVoice v).CachesCoherent := by
  simp only [Voice.cached, Envelope.times, Prod.mk.injEq] at hv
  obtain ⟨h1, h2, ⟨ha1, hd1, hr1, hs1⟩, ha2, hd2, hr2, hs2⟩ := hv
  refine ⟨h1.trans h.osc1, h2.trans h.osc2, ?_, ?_, h.lfo1, h.lfo2⟩
  · obtain ⟨ha, hd, hs, hr⟩ := h.env1
    exact ⟨ha1.trans ha, hd1.trans hd, (congrArg BitVec.toNat hs1).trans hs, hr1.trans hr⟩
  · obtain ⟨ha, hd, hs, hr⟩ := h.env2
    exact ⟨ha2.trans ha, hd2.trans hd, (congrArg BitVec.toNat hs2).trans hs, hr2.trans hr⟩

theorem State.CachesCoherent.setCtl (h : s.CachesCoherent) (c : Controller) : (s.setCtl c).CachesCoherent :=
  ⟨h.osc1, h.osc2, h.env1, h.env2, h.lfo1, h.lfo2⟩

theorem State.CachesCoherent.setEng (h : s.CachesCoherent) (e : Engine) : (s.setEng e).CachesCoherent :=
  ⟨h.osc1, h.osc2, h.env1, h.env2, h.lfo1, h.lfo2⟩

theorem State.CachesCoherent.setRx (h : s.CachesCoherent) (r : Receiver) : (s.setRx r).CachesCoherent :=
  ⟨h.osc1, h.osc2, h.env1, h.env2, h.lfo1, h.lfo2⟩

theorem State.CachesCoherent.setOut (h : s.CachesCoherent) (o : Output) : (s.setOut o).CachesCoherent :=
  ⟨h.osc1, h.osc2, h.env1, h.env2, h.lfo1, h.lfo2⟩

theorem State.CachesCoherent.setCtlEng (h : s.CachesCoherent) (c : Controller) (e : Engine) :
    State.CachesCoherent { s with ctl := c, eng := e } := (h.setCtl c).setEng e

/-- The output side, the port, the schedule and the record of outputs hold no cached copy. -/
theorem State.CachesCoherent.setRun (h : s.CachesCoherent) (o : Output) (p : List Word) (l : List Agent)
    (e : List Emission) : State.CachesCoherent { s with out := o, port := p, sched := l, emitted := e } :=
  ⟨h.osc1, h.osc2, h.env1, h.env2, h.lfo1, h.lfo2⟩

/-- LFOs that keep their waveform, and their increment where it is free-running, stay coherent (R603). -/
theorem State.CachesCoherent.setLfosEng (h : s.CachesCoherent) {l1 l2 : Lfo} (e : Engine)
    (h1 : l1.wave = s.lfo1.wave ∧ (16 ≤ lfoRateOf s .lfo1 → l1.inc = s.lfo1.inc))
    (h2 : l2.wave = s.lfo2.wave ∧ (16 ≤ lfoRateOf s .lfo2 → l2.inc = s.lfo2.inc)) :
    State.CachesCoherent { s with lfo1 := l1, lfo2 := l2, eng := e } :=
  ⟨h.osc1, h.osc2, h.env1, h.env2, ⟨h1.1.trans h.lfo1.1, fun hr => (h1.2 hr).trans (h.lfo1.2 hr)⟩,
    ⟨h2.1.trans h.lfo2.1, fun hr => (h2.2 hr).trans (h.lfo2.2 hr)⟩⟩

/-! ## Parameter writes -/

theorem envCacheOk_recomputeEnvs (s : State) (e : EnvId) : envCacheOk (recomputeEnvs s) e := by
  have hsus : ∀ b : Byte, (BitVec.ofNat 14 (low7 b * 128)).toNat = low7 b * 128 := fun b => by
    have hb : low7 b < 128 := (b.extractLsb' 0 7).isLt
    rw [BitVec.toNat_ofNat]
    omega
  cases e <;> exact ⟨rfl, rfl, hsus _, rfl⟩

theorem lfoCacheOk_updateLfo (s : State) (i : LfoId) : lfoCacheOk (updateLfo s i) i := by
  have hinc : 16 ≤ lfoRateOf s i → lfoIncrement s i = lfoRate s.cfg (lfoRateOf s i) := fun hr => by
    have hfree : ¬ isSynced s i = true := by simpa [isSynced] using hr
    exact if_neg hfree
  cases i <;> exact ⟨rfl, hinc⟩

/-- Every cached copy but those computed from the byte at an address is coherent. -/
structure State.CoherentExcept (s : State) (idx : Nat) : Prop where
  osc1 : idx ≠ 0 → s.voice.osc1.alg = readPatch s 0
  osc2 : idx ≠ 4 → s.voice.osc2.alg = readPatch s 4
  env1 : ¬ (15 ≤ idx ∧ idx ≤ 22) → envCacheOk s .env1
  env2 : ¬ (15 ≤ idx ∧ idx ≤ 22) → envCacheOk s .env2
  lfo1 : ¬ (23 ≤ idx ∧ idx ≤ 24) → lfoCacheOk s .lfo1
  lfo2 : ¬ (25 ≤ idx ∧ idx ≤ 26) → lfoCacheOk s .lfo2

theorem State.CachesCoherent.writePatch (h : s.CachesCoherent) (idx : Nat) (val : Byte) :
    (writePatch s idx val).CoherentExcept idx := by
  have hread : ∀ a, a ≠ idx → readPatch (Machine.writePatch s idx val) a = readPatch s a := fun a ha =>
    readPatch_writePatch_other ha
  refine ⟨fun hi => ?_, fun hi => ?_, fun hi => ?_, fun hi => ?_, fun hi => ?_, fun hi => ?_⟩
  · rw [hread 0 (by omega)]
    exact h.osc1
  · rw [hread 4 (by omega)]
    exact h.osc2
  · unfold envCacheOk offEnv
    rw [hread 15 (by omega), hread (15 + 1) (by omega), hread (15 + 2) (by omega), hread (15 + 3) (by omega)]
    exact h.env1
  · unfold envCacheOk offEnv
    rw [hread 19 (by omega), hread (19 + 1) (by omega), hread (19 + 2) (by omega), hread (19 + 3) (by omega)]
    exact h.env2
  · unfold lfoCacheOk lfoRateOf offLfoWave offLfoRate
    rw [hread 23 (by omega), hread 24 (by omega)]
    exact h.lfo1
  · unfold lfoCacheOk lfoRateOf offLfoWave offLfoRate
    rw [hread 25 (by omega), hread 26 (by omega)]
    exact h.lfo2

/-- The recomputation of a byte's row repairs the copies computed from that byte (R442). -/
theorem State.CoherentExcept.recompute {idx : Nat} (h : u.CoherentExcept idx) : (recompute u idx).CachesCoherent := by
  unfold Machine.recompute
  split
  · exact ⟨rfl, h.osc2 (by omega), h.env1 (by omega), h.env2 (by omega), h.lfo1 (by omega), h.lfo2 (by omega)⟩
  split
  · exact ⟨h.osc1 (by omega), rfl, h.env1 (by omega), h.env2 (by omega), h.lfo1 (by omega), h.lfo2 (by omega)⟩
  split
  · exact ⟨h.osc1 (by omega), h.osc2 (by omega), envCacheOk_recomputeEnvs u .env1, envCacheOk_recomputeEnvs u .env2,
      h.lfo1 (by omega), h.lfo2 (by omega)⟩
  split
  · exact ⟨h.osc1 (by omega), h.osc2 (by omega), h.env1 (by omega), h.env2 (by omega), lfoCacheOk_updateLfo u .lfo1,
      h.lfo2 (by omega)⟩
  split
  · exact ⟨h.osc1 (by omega), h.osc2 (by omega), h.env1 (by omega), h.env2 (by omega), h.lfo1 (by omega),
      lfoCacheOk_updateLfo u .lfo2⟩
  · exact ⟨h.osc1 (by omega), h.osc2 (by omega), h.env1 (by omega), h.env2 (by omega), h.lfo1 (by omega),
      h.lfo2 (by omega)⟩

theorem State.CachesCoherent.setParam (h : s.CachesCoherent) (idx : Nat) (val : Byte) :
    (setParam s idx val).CachesCoherent := by
  unfold Machine.setParam
  split
  · exact (h.writePatch idx val).recompute
  · exact h

theorem envCacheOk_congr {e : EnvId} (hc : t.cfg = s.cfg) (hp : t.patch = s.patch) (he : t.env e = s.env e)
    (h : envCacheOk s e) : envCacheOk t e := by
  unfold envCacheOk
  rw [hc, he, readPatch_eq_of_patch hc hp]
  exact h

theorem lfoCacheOk_congr {i : LfoId} (hc : t.cfg = s.cfg) (hp : t.patch = s.patch) (hl : t.lfo i = s.lfo i)
    (h : lfoCacheOk s i) : lfoCacheOk t i := by
  unfold lfoCacheOk lfoRateOf
  rw [hc, hl, readPatch_eq_of_patch hc hp]
  exact h

/-- `recompute_all()` makes every copy coherent, whatever it was (R443). -/
theorem cachesCoherent_recomputeAll (s : State) : (recomputeAll s).CachesCoherent := by
  have hvoice : (recomputeAll s).voice = (recomputeEnvs (setupOsc2 (setupOsc1 s))).voice := by simp [recomputeAll]
  have hlfo1 : (recomputeAll s).lfo1 = (updateLfo (recomputeEnvs (setupOsc2 (setupOsc1 s))) .lfo1).lfo1 := rfl
  have hread : readPatch (recomputeAll s) = readPatch s := readPatch_eq_of_patch (by simp) (by simp)
  refine ⟨?_, ?_, ?_, ?_, ?_, lfoCacheOk_updateLfo _ .lfo2⟩
  · rw [hvoice, hread]
    rfl
  · rw [hvoice, hread]
    rfl
  · exact envCacheOk_congr (by simp) (by simp) (congrArg Voice.env1 hvoice) (envCacheOk_recomputeEnvs _ .env1)
  · exact envCacheOk_congr (by simp) (by simp) (congrArg Voice.env2 hvoice) (envCacheOk_recomputeEnvs _ .env2)
  · exact lfoCacheOk_congr (by simp) (by simp) hlfo1 (lfoCacheOk_updateLfo _ .lfo1)

theorem State.CachesCoherent.controlChangeBody (h : s.CachesCoherent) (k v : BitVec 7) :
    (controlChangeBody k v s).CachesCoherent := by
  unfold Machine.controlChangeBody
  split
  · exact h.setEng _
  · exact h.setParam _ _
  · exact h.setParam _ _
  · exact h.setParam _ _
  · exact h.setParam _ _
  · exact h.setParam _ _
  · exact h.setParam _ _
  · exact h.setEng _
  · exact h.setEng _
  · exact h

theorem State.CachesCoherent.sysexEndBody (h : s.CachesCoherent) : (sysexEndBody s).CachesCoherent := by
  simp only [Machine.sysexEndBody]
  split
  · split
    · exact (cachesCoherent_recomputeAll _).setRx _
    · exact h.setRx _
  · exact h

/-! ## Notes -/

theorem State.CachesCoherent.voiceTrigger (h : s.CachesCoherent) (n : Byte) (vel : BitVec 7) (legato : Bool) :
    (voiceTrigger s n vel legato).CachesCoherent := h.setVoice (cached_voiceTrigger s n vel legato)

theorem State.CachesCoherent.voiceRelease (h : s.CachesCoherent) : (voiceRelease s).CachesCoherent :=
  h.setVoice s.voice.cached_release

theorem State.CachesCoherent.ctlNoteOn (h : s.CachesCoherent) (n v : BitVec 7) : (ctlNoteOn s n v).CachesCoherent := by
  simp only [Machine.ctlNoteOn]
  split
  · exact (h.setCtl _).voiceTrigger _ _ _
  · exact h.setCtl _

theorem State.CachesCoherent.ctlNoteOff (h : s.CachesCoherent) (n : BitVec 7) : (ctlNoteOff s n).CachesCoherent := by
  simp only [Machine.ctlNoteOff]
  split
  · split
    · exact (h.setCtl _).voiceRelease
    · split
      · exact (h.setCtl _).voiceTrigger _ _ _
      · exact h.setCtl _
  · exact h

theorem State.CachesCoherent.noteOnBody (h : s.CachesCoherent) (k v : BitVec 7) : (noteOnBody k v s).CachesCoherent := by
  unfold Machine.noteOnBody
  split
  · exact h.ctlNoteOff k
  · exact h.ctlNoteOn k v

theorem State.CachesCoherent.allSoundOffBody (h : s.CachesCoherent) : (allSoundOffBody s).CachesCoherent := by
  refine State.CachesCoherent.setCtl (h.setVoice ?_) _
  rfl

theorem State.CachesCoherent.ctlClock (h : s.CachesCoherent) : (ctlClock s).CachesCoherent := by
  unfold Machine.ctlClock
  split
  · split <;> exact h.setCtl _
  · exact h

/-! ## Control and audio ticks -/

theorem State.CachesCoherent.advanceLfos (h : s.CachesCoherent) : (advanceLfos s).CachesCoherent := by
  have hkeep : ∀ (l : Lfo) (r : Half), (l.advance r).1.wave = l.wave ∧ (l.advance r).1.inc = l.inc := fun l r => by
    simp only [Lfo.advance]
    split <;> exact ⟨rfl, rfl⟩
  obtain ⟨hw1, hi1⟩ := hkeep s.lfo1 s.eng.rng
  obtain ⟨hw2, hi2⟩ := hkeep s.lfo2 (s.lfo1.advance s.eng.rng).2
  exact h.setLfosEng _ ⟨hw1, fun _ => hi1⟩ ⟨hw2, fun _ => hi2⟩

theorem State.CachesCoherent.arpStep (h : s.CachesCoherent) : (arpStep s).CachesCoherent :=
  State.CachesCoherent.voiceTrigger (h.setCtlEng _ _) _ _ false

theorem State.CachesCoherent.doStep (h : s.CachesCoherent) : (doStep s).CachesCoherent := by
  have hsrc : (setSeqSources s (currentStep s)).CachesCoherent := h.setCtl _
  simp only [Machine.doStep]
  split
  · exact hsrc.arpStep.setCtl _
  · exact hsrc.setCtl _

theorem State.CachesCoherent.boundary (h : s.CachesCoherent) : (boundary s).CachesCoherent := by
  have hplay : (playStep s).CachesCoherent := (h.setCtl _).doStep
  unfold Machine.boundary
  split
  · exact hplay
  · exact hplay.setCtl _

theorem State.CachesCoherent.countDown (h : s.CachesCoherent) : (countDown s).CachesCoherent := by
  unfold Machine.countDown
  split
  · exact h.setCtl _
  · exact h

theorem State.CachesCoherent.ctlControl (h : s.CachesCoherent) : (ctlControl s).1.CachesCoherent := by
  have hset : (settled s).CachesCoherent := h.setCtl _
  simp only [Machine.ctlControl]
  split
  · exact hset.boundary.countDown
  · exact hset.countDown

/-- A drift reset writes the increment of a step-synced LFO only, and no waveform (R241). -/
theorem driftResetLfo_keeps (s : State) (i : LfoId) :
    (driftResetLfo s i).wave = (s.lfo i).wave ∧ (16 ≤ lfoRateOf s i → (driftResetLfo s i).inc = (s.lfo i).inc) := by
  unfold driftResetLfo
  split
  · next hsync =>
    have hlow : lfoRateOf s i < 16 := by simpa [isSynced] using hsync
    exact ⟨rfl, fun hr => absurd hlow (Nat.not_lt.mpr hr)⟩
  · exact ⟨rfl, fun _ => rfl⟩

theorem State.CachesCoherent.driftStep (h : s.CachesCoherent) : (driftStep s).CachesCoherent := by
  unfold Machine.driftStep
  split
  · exact h.setEng _
  split
  · exact h.setLfosEng _ (driftResetLfo_keeps s .lfo1) (driftResetLfo_keeps s .lfo2)
  · exact h.setEng _

theorem State.CachesCoherent.controllerTick (h : s.CachesCoherent) : (controllerTick s).CachesCoherent := by
  simp only [Machine.controllerTick]
  split
  · exact h.ctlControl.driftStep
  · exact h.ctlControl

theorem State.CachesCoherent.voiceControl (h : s.CachesCoherent) : (voiceControl s).CachesCoherent := by
  have hvoice : s.voice.renderEnvelopes.glide.refreshSources.cached = s.voice.cached :=
    s.voice.renderEnvelopes.cached_glide.trans s.voice.cached_renderEnvelopes
  have hmatrix : (resolveMatrix (s.setVoice s.voice.renderEnvelopes.glide.refreshSources)).CachesCoherent :=
    (h.setVoice hvoice).setVoice rfl
  exact hmatrix.setVoice rfl

theorem State.CachesCoherent.controlCore (h : s.CachesCoherent) : (controlCore s).CachesCoherent :=
  State.CachesCoherent.voiceControl (((h.advanceLfos.controllerTick.setEng _).setEng _).setEng _)

theorem State.CachesCoherent.audioStep (h : s.CachesCoherent) : (audioStep s).1.CachesCoherent := by
  have hnoise : (noiseUpdate s).CachesCoherent := by
    simp only [Machine.noiseUpdate]
    split <;> exact h.setEng _
  simp only [Machine.audioStep, Machine.voiceAudio]
  split
  · exact hnoise
  · exact hnoise.setVoice (Voice.cached_hardSync _ _)

/-! ## The consumer and the interleaved sub-steps -/

theorem State.CachesCoherent.consumerTick (h : s.CachesCoherent) : (consumerTick s).CachesCoherent :=
  h.setRun _ _ _ _

theorem State.CachesCoherent.preempt (h : s.CachesCoherent) : (preempt s).CachesCoherent := by
  rw [preempt_eq]
  exact h.setRun _ _ _ _

theorem State.CachesCoherent.runSubStep (h : s.CachesCoherent) (k : SubStep) : (runSubStep k s).CachesCoherent := by
  cases k with
  | core => exact h.controlCore
  | sample => exact h.audioStep.setOut _
  | cutoff | resonance | amplitude => exact h.setOut _

theorem State.CachesCoherent.runSubSteps (h : s.CachesCoherent) (ks : List SubStep) : (runSubSteps ks s).CachesCoherent := by
  induction ks generalizing s with
  | nil => exact h
  | cons k ks ih => exact ih (h.preempt.runSubStep k)

/-! ## Commands and steps -/

theorem State.CachesCoherent.onChannel (h : s.CachesCoherent) (ch : BitVec 4) {f : State → State}
    (hf : (f s).CachesCoherent) : (onChannel ch f s).CachesCoherent := by
  unfold Machine.onChannel
  split
  · exact hf
  · exact h

theorem State.CachesCoherent.exec {i : Instr} (h : s.CachesCoherent) (ht : exec i s = .next t) : t.CachesCoherent := by
  cases i <;> cases ht
  case nop => exact h
  case noteOn ch k v => exact h.onChannel ch (h.noteOnBody k v)
  case noteOff ch k v => exact h.onChannel ch (h.ctlNoteOff k)
  case controlChange ch k v => exact h.onChannel ch (h.controlChangeBody k v)
  case allSoundOff ch => exact h.onChannel ch h.allSoundOffBody
  case allNotesOff ch => exact h.onChannel ch (h.setCtl _).voiceRelease
  case pitchBend ch _ | resetAllControllers ch | omniModeOn ch | omniModeOff ch => exact h.onChannel ch (h.setEng _)
  case sysexStart | sysexByte _ => exact h.setRx _
  case sysexEnd => exact h.sysexEndBody
  case setParameter idx val => exact h.setParam idx.toNat val
  case getParameter _ | setCvInput _ _ => exact h.setEng _
  case clock => exact h.ctlClock
  case start | stop => exact h.setCtl _
  case control => exact h.controlCore.runSubSteps cvWrites
  case audio => exact h.audioStep.setEng _
  case renderBlock =>
    split
    · exact h.runSubSteps (blockSteps s.cfg)
    · exact h

section
variable {P : State → Prop} (hrun : ∀ {s} (p : List Word) (l : List Agent), P s → P { s with port := p, sched := l })
  (htick : ∀ {s}, P s → P (consumerTick s)) (hexec : ∀ {i s t}, P s → exec i s = .next t → P t)

include hexec in
theorem runWord_keeps {w : Word} (h : P s) (ht : runWord w s = .next t) : P t := by
  unfold runWord at ht
  cases hd : decode w with
  | ok i =>
    rw [hd] at ht
    exact hexec h ht
  | reject r =>
    rw [hd] at ht
    cases ht
    exact h

include hrun hexec in
theorem hostTurn_keeps (h : P s) (ht : hostTurn s = .next t) : P t := by
  unfold hostTurn fetchWord at ht
  cases hp : s.port with
  | nil =>
    rw [hp] at ht
    cases ht
    exact h
  | cons w rest =>
    rw [hp] at ht
    exact runWord_keeps hexec (hrun rest s.sched h) ht

include hrun htick hexec in
/-- A property that the commands and the consumer step keep, and that does not read the port or the schedule, is kept by every
step. -/
theorem step_keeps (h : P s) (ht : step s = .next t) : P t := by
  by_cases hwf : s.cfg.wf = true
  · rw [step_of_wf hwf, turn] at ht
    split at ht
    · cases ht
      exact htick (hrun s.port _ h)
    · exact hostTurn_keeps hrun hexec (hrun s.port _ h) ht
    · exact hostTurn_keeps hrun hexec h ht
  · rw [step_of_not_wf hwf] at ht
    cases ht

end

/-- Settles O16: the commands and the consumer step keep the cached copies coherent; it needs nothing of the invariant. -/
theorem everyStepKeepsTheCachesCoherent : Obligations.EveryStepKeepsTheCachesCoherent := fun _ _ _ h ht =>
  step_keeps (fun p l h => h.setRun _ p l _) State.CachesCoherent.consumerTick State.CachesCoherent.exec h ht

end Sys2Proof.Machine
end

section
/-! The two agents on the ring buffer (47_buffering.md R112 to R114, R530 to R534): what a consumer step sends, and
what the commands leave of the consumer's registers. -/

namespace Sys2Proof.Machine

variable {s t u : State}

/-! ## Consumer steps (R530, R534) -/

/-- The sample a consumer step takes: the oldest queued one, or the last one again on an underrun (R530). -/
theorem consumerTick_audioOut (s : State) : (consumerTick s).out.audioOut = s.out.ring.head?.getD s.out.audioOut := by
  simp only [consumerTick, Output.popSample, Output.drivePins]
  split <;> simp [*]

theorem consumerTick_glitchCount (s : State) :
    (consumerTick s).out.glitchCount = if s.out.ring = [] then s.out.glitchCount + 1 else s.out.glitchCount := by
  simp only [consumerTick, Output.popSample, Output.drivePins]
  split <;> simp [*]

theorem consumerTick_emitted (s : State) : (consumerTick s).emitted = (consumerTick s).out.emission :: s.emitted := rfl

theorem consumerTicks_ring (n : Nat) (s : State) : (consumerTicks n s).out.ring = s.out.ring.drop n := by
  induction n generalizing s with
  | zero => rfl
  | succ n ih => rw [consumerTicks, ih, consumerTick_ring, List.drop_tail]

/-- Each consumer step that finds the ring buffer empty is one glitch, counted modulo 2^16. -/
theorem consumerTicks_glitchCount (n : Nat) (s : State) :
    (consumerTicks n s).out.glitchCount.toNat = (s.out.glitchCount.toNat + (n - s.out.ring.length)) % 65536 := by
  induction n generalizing s with
  | zero =>
    have := s.out.glitchCount.isLt
    rw [consumerTicks, Nat.zero_sub]
    omega
  | succ n ih =>
    rw [consumerTicks, ih, consumerTick_ring, consumerTick_glitchCount, List.length_tail]
    split
    · next hempty =>
      rw [hempty, BitVec.toNat_add, show (1 : Half).toNat = 1 from rfl, List.length_nil]
      omega
    · next hsome =>
      have := List.length_pos_iff.mpr hsome
      congr 2
      omega

/-- The record of `n` consumer steps is `n` entries, newest first: the first `n` queued samples, then the last one again. -/
theorem consumerTicks_emitted (n : Nat) (s : State) :
    ∃ es : List Emission, (consumerTicks n s).emitted = es ++ s.emitted ∧ es.length = n ∧
      es.reverse.map Emission.audio =
        s.out.ring.take n ++ List.replicate (n - s.out.ring.length) (s.out.ring.getLast?.getD s.out.audioOut) := by
  induction n generalizing s with
  | zero => exact ⟨[], rfl, rfl, by simp⟩
  | succ n ih =>
    obtain ⟨es, hes, hlen, haudio⟩ := ih (consumerTick s)
    refine ⟨es ++ [(consumerTick s).out.emission], ?_, by simp [hlen], ?_⟩
    · rw [consumerTicks, hes, consumerTick_emitted, List.append_cons]
    · have hsent : (consumerTick s).out.emission.audio = s.out.ring.head?.getD s.out.audioOut := consumerTick_audioOut s
      rw [List.reverse_append, List.map_append, haudio, consumerTick_ring, consumerTick_audioOut]
      simp only [List.reverse_singleton, List.map_singleton, hsent]
      cases s.out.ring with
      | nil => simp [List.replicate_succ]
      | cons x rest => simp [List.getLast?_cons]

/-- Settles O12: the record of `n` consumer steps, cut where the steps begin. -/
theorem samplesLeaveInTheOrderTheyEntered : Obligations.SamplesLeaveInTheOrderTheyEntered := by
  intro n s t
  obtain ⟨es, hes, rfl, haudio⟩ := consumerTicks_emitted n s
  refine ⟨?_, ?_, consumerTicks_ring _ s, consumerTicks_glitchCount _ s⟩
  · rw [hes, List.take_left]
    exact haudio
  · rw [hes, List.drop_left]

/-! ## What the commands leave of the consumer's registers (R112, R557) -/

/-- Without consumer steps in the schedule, an interleaving point only takes the host's turn off it. -/
theorem preempt_of_no_consumer (h : .consumer ∉ s.sched) : preempt s = { s with sched := s.sched.tail } := by
  refine preempt_of_hostIsNext s ?_
  cases hs : s.sched with
  | nil => exact .inl rfl
  | cons a rest => cases a with
    | host => exact .inr ⟨rest, rfl⟩
    | consumer => simp [hs] at h

/-- The host's part of a step: it leaves the consumer's registers and takes nothing off the ring buffer. -/
def LeavesConsumer (s t : State) : Prop := t.consumerView = s.consumerView ∧ s.out.ring <+: t.out.ring

theorem LeavesConsumer.of_out (ho : t.out = s.out) (he : t.emitted = s.emitted) : LeavesConsumer s t := by
  unfold LeavesConsumer State.consumerView
  rw [ho, he]
  exact ⟨rfl, List.prefix_rfl⟩

theorem LeavesConsumer.trans (h1 : LeavesConsumer s t) (h2 : LeavesConsumer t u) : LeavesConsumer s u :=
  ⟨h2.1.trans h1.1, h1.2.trans h2.2⟩

theorem runSubStep_sched (k : SubStep) (s : State) : (runSubStep k s).sched = s.sched := by
  cases k <;> simp [runSubStep, ringPush]

theorem leavesConsumer_runSubStep (k : SubStep) (s : State) : LeavesConsumer s (runSubStep k s) := by
  cases k with
  | core => exact .of_out (by simp [runSubStep]) (by simp [runSubStep])
  | sample => simp [LeavesConsumer, State.consumerView, runSubStep, ringPush]
  | cutoff | resonance | amplitude => exact ⟨rfl, List.prefix_rfl⟩

theorem leavesConsumer_runSubSteps (ks : List SubStep) (h : .consumer ∉ s.sched) : LeavesConsumer s (runSubSteps ks s) := by
  induction ks generalizing s with
  | nil => exact .of_out rfl rfl
  | cons k ks ih =>
    rw [runSubSteps, preempt_of_no_consumer h]
    refine (LeavesConsumer.of_out rfl rfl).trans ((leavesConsumer_runSubStep k { s with sched := s.sched.tail }).trans (ih ?_))
    rw [runSubStep_sched]
    exact fun hm => h (List.mem_of_mem_tail hm)

theorem onChannel_leavesConsumer (ch : BitVec 4) {f : State → State} (ho : (f s).out = s.out)
    (he : (f s).emitted = s.emitted) : LeavesConsumer s (onChannel ch f s) := by
  unfold onChannel
  split
  · exact .of_out ho he
  · exact .of_out rfl rfl

theorem noteOnBody_frame (k v : BitVec 7) (s : State) :
    (noteOnBody k v s).out = s.out ∧ (noteOnBody k v s).emitted = s.emitted := by
  unfold noteOnBody
  split <;> simp

theorem ctlClock_frame (s : State) : (ctlClock s).out = s.out ∧ (ctlClock s).emitted = s.emitted := by
  unfold ctlClock
  split
  · split <;> exact ⟨rfl, rfl⟩
  · exact ⟨rfl, rfl⟩

theorem sysexEndBody_frame (s : State) : (sysexEndBody s).out = s.out ∧ (sysexEndBody s).emitted = s.emitted := by
  simp only [sysexEndBody, commit]
  split
  · split <;> simp
  · exact ⟨rfl, rfl⟩

theorem leavesConsumer_exec {i : Instr} (hs : .consumer ∉ s.sched) (ht : exec i s = .next t) : LeavesConsumer s t := by
  cases i <;> cases ht
  case noteOn ch k v =>
    obtain ⟨ho, he⟩ := noteOnBody_frame k v s
    exact onChannel_leavesConsumer ch ho he
  case noteOff ch k _ => exact onChannel_leavesConsumer ch (by simp) (by simp)
  case controlChange ch k v => exact onChannel_leavesConsumer ch (by simp) (by simp)
  case pitchBend ch _ | allSoundOff ch | allNotesOff ch | resetAllControllers ch | omniModeOn ch | omniModeOff ch =>
    exact onChannel_leavesConsumer ch rfl rfl
  case sysexEnd =>
    obtain ⟨ho, he⟩ := sysexEndBody_frame s
    exact .of_out ho he
  case setParameter idx val => exact .of_out (by simp) (by simp)
  case clock =>
    obtain ⟨ho, he⟩ := ctlClock_frame s
    exact .of_out ho he
  case control =>
    exact (LeavesConsumer.of_out (by simp) (by simp)).trans (leavesConsumer_runSubSteps cvWrites (by simpa using hs))
  case audio => exact .of_out (by simp) (by simp)
  case renderBlock =>
    split
    · exact leavesConsumer_runSubSteps _ hs
    · exact .of_out rfl rfl
  case nop | sysexStart | sysexByte _ | getParameter _ | start | stop | setCvInput _ _ => exact .of_out rfl rfl

/-- Settles O10: the commands leave the consumer's registers, and a consumer step the host's part of the state. -/
theorem eachAgentWritesItsOwnRegisters : Obligations.EachAgentWritesItsOwnRegisters :=
  ⟨fun _ _ _ hs ht => leavesConsumer_exec hs ht,
    fun s => ⟨hostView_consumerTick s, by simp, consumerTick_ring s⟩⟩

end Sys2Proof.Machine
end

section
/-! RENDER_BLOCK and CONTROL under a schedule of consumer steps (47_buffering.md R524, R525, R533): the samples that a run of
sub-steps queues, whatever the consumer takes off meanwhile, and a consumer step between two of CONTROL's writes. -/

namespace Sys2Proof.Machine

variable {s t u : State}

/-! ## The samples of audio ticks -/

/-- The samples of `n` audio ticks in a row (R460). -/
def audioSamples : Nat → State → List Byte
  | 0, _ => []
  | n + 1, s => (audioStep s).2 :: audioSamples n (audioStep s).1

theorem length_audioSamples (n : Nat) (s : State) : (audioSamples n s).length = n := by
  induction n generalizing s with
  | zero => rfl
  | succ n ih => rw [audioSamples, List.length_cons, ih]

theorem audioSamples_hostView (n : Nat) (s : State) : audioSamples n s.hostView = audioSamples n s := by
  induction n generalizing s with
  | zero => rfl
  | succ n ih => rw [audioSamples, audioStep_hostView, ih, audioSamples]

theorem audioSamples_of_hostView (n : Nat) (h : s.hostView = t.hostView) : audioSamples n s = audioSamples n t := by
  rw [← audioSamples_hostView, h, audioSamples_hostView]

/-! An audio tick does not read the response register (R460). -/

theorem noiseUpdate_respond (s : State) (r : Byte) : noiseUpdate (s.respond r) = (noiseUpdate s).respond r := by
  unfold noiseUpdate
  by_cases h : s.cfg.noiseDecim ≤ s.eng.noiseCtr + 1
  · have hr : (s.respond r).cfg.noiseDecim ≤ (s.respond r).eng.noiseCtr + 1 := h
    rw [if_pos h, if_pos hr]
    rfl
  · have hr : ¬ (s.respond r).cfg.noiseDecim ≤ (s.respond r).eng.noiseCtr + 1 := h
    rw [if_neg h, if_neg hr]
    rfl

theorem voiceAudio_respond (s : State) (r : Byte) :
    voiceAudio (s.respond r) = ((voiceAudio s).1.respond r, (voiceAudio s).2) := by
  unfold voiceAudio
  by_cases h : s.voice.dead = true
  · have hr : (s.respond r).voice.dead = true := h
    rw [if_pos h, if_pos hr]
  · have hr : ¬ (s.respond r).voice.dead = true := h
    rw [if_neg h, if_neg hr]
    rfl

theorem audioStep_respond (s : State) (r : Byte) : audioStep (s.respond r) = ((audioStep s).1.respond r, (audioStep s).2) := by
  simp only [audioStep, noiseUpdate_respond, voiceAudio_respond]

theorem audioSamples_respond (n : Nat) (s : State) (r : Byte) : audioSamples n (s.respond r) = audioSamples n s := by
  induction n generalizing s with
  | zero => rfl
  | succ n ih => rw [audioSamples, audioStep_respond, ih, audioSamples]

theorem audioResponses_eq (n : Nat) (s : State) : audioResponses n s = audioSamples n s := by
  induction n generalizing s with
  | zero => rfl
  | succ n ih =>
    rw [audioResponses, execAudio_eq, audioSamples]
    simp only [ih, audioSamples_respond]
    rfl

/-! ## What a run of sub-steps queues -/

/-- From `s` to `t` the samples `q` were queued, and of all the queued samples consumer steps took some at the front, at most
one each. -/
def Queues (s : State) (q : List Byte) (t : State) : Prop :=
  ∃ (n : Nat) (es : List Emission), t.out.ring = (s.out.ring ++ q).drop n ∧ t.emitted = es ++ s.emitted ∧ n ≤ es.length

theorem Queues.of_out (ho : t.out.ring = s.out.ring) (he : t.emitted = s.emitted) : Queues s [] t :=
  ⟨0, [], by rw [List.append_nil]; exact ho, he, le_refl 0⟩

/-- A consumer step that finds the ring buffer empty takes nothing, so later samples keep their place. -/
theorem Queues.trans {q q' : List Byte} (h1 : Queues s q t) (h2 : Queues t q' u) : Queues s (q ++ q') u := by
  obtain ⟨n, es, hring, hem, hn⟩ := h1
  obtain ⟨n', es', hring', hem', hn'⟩ := h2
  refine ⟨min n (s.out.ring ++ q).length + n', es' ++ es, ?_, ?_, ?_⟩
  · rw [hring', hring, ← List.drop_drop, ← List.append_assoc, List.drop_append_of_le_length (min_le_right _ _)]
    congr 2
    rcases le_total n (s.out.ring ++ q).length with hle | hle
    · rw [min_eq_left hle]
    · rw [min_eq_right hle, List.drop_length, List.drop_eq_nil_of_le hle]
  · rw [hem', hem, List.append_assoc]
  · have := min_le_left n (s.out.ring ++ q).length
    rw [List.length_append (as := es')]
    omega

theorem queues_preemptBy (l : List Agent) (s : State) : Queues s [] (preemptBy l s) := by
  induction l generalizing s with
  | nil => exact .of_out rfl rfl
  | cons a l ih =>
    cases a with
    | host => exact .of_out rfl rfl
    | consumer =>
      have htick : Queues s [] (consumerTick s) :=
        ⟨1, [(consumerTick s).out.emission], by rw [consumerTick_ring, List.append_nil, List.drop_one], rfl, le_refl 1⟩
      exact htick.trans (ih (consumerTick s))

theorem queues_runSubSteps_control (ks : List SubStep) (hk : .sample ∉ ks) (s : State) : Queues s [] (runSubSteps ks s) := by
  induction ks generalizing s with
  | nil => exact .of_out rfl rfl
  | cons k ks ih =>
    have hne : k ≠ .sample := fun h => hk (h ▸ List.mem_cons_self)
    have hstep : Queues (preempt s) [] (runSubStep k (preempt s)) := by
      cases k with
      | core => exact .of_out (by simp [runSubStep]) (by simp [runSubStep])
      | cutoff | resonance | amplitude => exact .of_out rfl rfl
      | sample => exact absurd rfl hne
    exact (queues_preemptBy s.sched s).trans (hstep.trans (ih (fun h => hk (List.mem_cons_of_mem k h)) _))

theorem audioSamples_preempt (n : Nat) (s : State) : audioSamples n (preempt s) = audioSamples n s :=
  audioSamples_of_hostView n (hostView_preemptBy s.sched s)

theorem queues_runSubSteps_samples (n : Nat) (s : State) :
    Queues s (audioSamples n s) (runSubSteps (List.replicate n .sample) s) := by
  induction n generalizing s with
  | zero => exact .of_out rfl rfl
  | succ n ih =>
    have hpush : Queues (preempt s) [(audioStep (preempt s)).2] (runSubStep .sample (preempt s)) :=
      ⟨0, [], by simp [runSubStep, ringPush], by simp [runSubStep, ringPush], le_refl 0⟩
    have hrest : audioSamples n (runSubStep .sample (preempt s)) = audioSamples n (audioStep (preempt s)).1 :=
      audioSamples_of_hostView n rfl
    rw [List.replicate_succ, runSubSteps, ← audioSamples_preempt, audioSamples, ← hrest]
    exact (queues_preemptBy s.sched s).trans (hpush.trans (ih _))

theorem runSubSteps_append (ks ks' : List SubStep) (s : State) :
    runSubSteps (ks ++ ks') s = runSubSteps ks' (runSubSteps ks s) := by
  induction ks generalizing s with
  | nil => rfl
  | cons k ks ih => exact ih _

theorem runSubSteps_frame (ks : List SubStep) (s : State) :
    (runSubSteps ks s).cfg = s.cfg ∧ (runSubSteps ks s).eng.resp = s.eng.resp := by
  induction ks generalizing s with
  | nil => exact ⟨rfl, rfl⟩
  | cons k ks ih =>
    have hresp : (runSubStep k (preempt s)).eng.resp = s.eng.resp := by cases k <;> simp [runSubStep, ringPush]
    rw [runSubSteps, (ih _).1, (ih _).2, runSubStep_cfg, hresp]
    simp

/-! ## A started block (R524) -/

theorem roomForBlock_iff (s : State) : roomForBlock s = true ↔ s.cfg.blockSize ≤ s.cfg.ringSize - s.out.ring.length := by
  rw [roomForBlock, ringCount, Bool.not_eq_true', decide_eq_false_iff_not, Nat.not_lt]

/-- A block's CONTROL part, under any schedule, leaves the host's part as a CONTROL without consumer steps does. -/
theorem hostView_blockControl (s : State) :
    (runSubSteps (.core :: cvWrites) s).hostView = (runSubSteps cvWrites (controlCore { s with sched := [] })).hostView := by
  refine hostView_runSubSteps_congr cvWrites (hostView_congr controlCore controlCore_hostView ?_)
  exact hostView_preemptBy s.sched s

/-- Settles O55: the block's sub-steps queue the samples of its audio ticks, which depend on the host's part only. -/
theorem blockSamplesAreQueuedInOrder : Obligations.BlockSamplesAreQueuedInOrder := by
  intro s hfit
  have hsplit : runSubSteps (blockSteps s.cfg) s =
      runSubSteps (List.replicate s.cfg.blockSize .sample) (runSubSteps (.core :: cvWrites) s) :=
    runSubSteps_append (.core :: cvWrites) _ s
  obtain ⟨n, es, hring, hem, hn⟩ : Queues s (audioSamples s.cfg.blockSize (runSubSteps (.core :: cvWrites) s))
      (runSubSteps (blockSteps s.cfg) s) := by
    rw [hsplit]
    exact (queues_runSubSteps_control _ (by decide) s).trans (queues_runSubSteps_samples _ _)
  obtain ⟨hcfg, hresp⟩ := runSubSteps_frame (blockSteps s.cfg) s
  have hgrow : (runSubSteps (blockSteps s.cfg) s).emitted.length - s.emitted.length = es.length := by
    rw [hem, List.length_append, Nat.add_sub_cancel]
  refine ⟨runSubSteps (blockSteps s.cfg) s, runSubSteps cvWrites (controlCore { s with sched := [] }), n, ?_, rfl, ?_, ?_, ?_,
    fun hok => ?_, hresp⟩
  · exact congrArg Host.Outcome.next (if_pos ((roomForBlock_iff s).mpr hfit))
  · rw [hring, audioResponses_eq, audioSamples_of_hostView _ (hostView_blockControl s)]
  · rw [hgrow]
    exact hn
  · rw [hgrow, hem, List.drop_left]
  · have hlen := length_audioSamples s.cfg.blockSize (runSubSteps (.core :: cvWrites) s)
    unfold State.ringOk at hok ⊢
    rw [hcfg, hring, List.length_drop, List.length_append, hlen]
    omega

/-! ## A consumer step between CONTROL's writes (R115, R533) -/

theorem consumerTick_pins (s : State) :
    (consumerTick s).out.pinCutoff = s.out.cvCutoff ∧ (consumerTick s).out.pinResonance = s.out.cvResonance ∧
      (consumerTick s).out.pinAmplitude = s.out.cvAmplitude := by
  simp only [consumerTick, Output.popSample, Output.drivePins]
  split <;> exact ⟨rfl, rfl, rfl⟩

/-- One consumer step after the first write sends the new cutoff with the old resonance and amplitude. -/
theorem cvWrites_of_consumer_second (h : s.sched = [.host, .consumer]) :
    (runSubSteps cvWrites s).out.pinCutoff = outCutoff s ∧
      (runSubSteps cvWrites s).out.pinResonance = s.out.cvResonance ∧
      (runSubSteps cvWrites s).out.pinAmplitude = s.out.cvAmplitude ∧
      (runSubSteps cvWrites s).emitted.length = s.emitted.length + 1 := by
  have hhost : preempt s = { s with sched := [.consumer] } := by rw [preempt, h]; rfl
  obtain ⟨first, hfirst⟩ : ∃ first, runSubStep .cutoff { s with sched := [.consumer] } = first := ⟨_, rfl⟩
  have hrun : runSubSteps cvWrites s = runSubSteps [.amplitude] (runSubStep .resonance (preempt first)) := by
    rw [cvWrites, runSubSteps, hhost, hfirst, runSubSteps]
  have hsched : preempt first = { consumerTick first with sched := [] } := by rw [preempt, ← hfirst]; rfl
  have hrest : LeavesConsumer (preempt first) (runSubSteps cvWrites s) := by
    rw [hrun]
    refine (leavesConsumer_runSubStep .resonance _).trans (leavesConsumer_runSubSteps _ ?_)
    rw [runSubStep_sched, hsched]
    exact List.not_mem_nil
  obtain ⟨hview, -⟩ := hrest
  rw [hsched] at hview
  simp only [State.consumerView, Prod.mk.injEq] at hview
  obtain ⟨-, hcut, hres, hamp, -, -, hem⟩ := hview
  obtain ⟨hpc, hpr, hpa⟩ := consumerTick_pins first
  rw [hcut, hres, hamp, hem, hpc, hpr, hpa, consumerTick_emitted, ← hfirst]
  exact ⟨rfl, rfl, rfl, rfl⟩

/-- Settles O56: the output registers end alike as equal host views do; the pins are those of the step after the first write. -/
theorem consumerCanSeeAMixOfControlValues : Obligations.ConsumerCanSeeAMixOfControlValues := by
  intro s hs
  have hview : (runSubSteps cvWrites (controlCore s)).hostView =
      (runSubSteps cvWrites (controlCore { s with sched := [] })).hostView :=
    hostView_runSubSteps_congr cvWrites (hostView_congr controlCore controlCore_hostView rfl)
  obtain ⟨-, -, -, -, -, -, -, -, -, hcut, hres, hamp⟩ := hostView_fields hview
  obtain ⟨hnew, -, -⟩ := cvWrites_out (controlCore s)
  obtain ⟨hpc, hpr, hpa, hlen⟩ := cvWrites_of_consumer_second (s := controlCore s) (by simpa using hs)
  refine ⟨_, _, rfl, rfl, hcut, hres, hamp, ?_, ?_, ?_, ?_⟩
  · rw [hpc, ← hnew, hcut]
  · simpa using hpr
  · simpa using hpa
  · simpa using hlen

end Sys2Proof.Machine
end

section
/-! SET_PARAMETER (45_engine_commands.md R440, R442): the registers of each row of the recomputation in numbers, and that a
second write of the same byte changes nothing. -/

namespace Sys2Proof.Machine

variable {s : State}

/-! ## The rows of the recomputation -/

/-- An envelope with its cached registers computed from four patch bytes in numbers (R212). -/
theorem Envelope.recompute_eq (c : Config) (e : Envelope) (a d u r : Byte) :
    e.recompute c a d u r = { e with
      incA := envInc c (a.toNat % 128)
      incD := envInc c (d.toNat % 128)
      sus := BitVec.ofNat 14 (u.toNat % 128 * 128)
      incR := envInc c (r.toNat % 128) } := by
  simp only [Envelope.recompute, low7_eq_mod]

theorem readPatch_recompute (s : State) (idx : Nat) : readPatch (recompute s idx) = readPatch s :=
  readPatch_eq_of_patch (by simp) (by simp)

theorem lfoIncrement_recompute (s : State) (idx : Nat) : lfoIncrement (recompute s idx) = lfoIncrement s :=
  lfoIncrement_eq_of_patch (by simp) (by simp) (by simp)

theorem recompute_eq (s : State) (idx : Nat) :
    recompute s idx = { s with
      patch := (recompute s idx).patch, lfo1 := (recompute s idx).lfo1, lfo2 := (recompute s idx).lfo2
      voice := (recompute s idx).voice } := by
  unfold recompute
  split_ifs <;> rfl

theorem recompute_voice (s : State) (idx : Nat) :
    (recompute s idx).voice =
      if idx = 0 then { s.voice with osc1 := { s.voice.osc1 with alg := readPatch s 0 } }
      else if idx = 4 then { s.voice with osc2 := { s.voice.osc2 with alg := readPatch s 4 } }
      else if 15 ≤ idx ∧ idx ≤ 22 then
        { s.voice with
          env1 := s.voice.env1.recompute s.cfg (readPatch s 15) (readPatch s 16) (readPatch s 17) (readPatch s 18)
          env2 := s.voice.env2.recompute s.cfg (readPatch s 19) (readPatch s 20) (readPatch s 21) (readPatch s 22) }
      else s.voice := by
  unfold recompute
  split_ifs <;> rfl

theorem recompute_lfo1 (s : State) (idx : Nat) :
    (recompute s idx).lfo1 =
      if idx = 23 ∨ idx = 24 then { s.lfo1 with wave := readPatch s 23, inc := lfoIncrement s .lfo1 } else s.lfo1 := by
  by_cases h : idx = 23 ∨ idx = 24
  · rw [if_pos h, recompute, if_neg (by omega), if_neg (by omega), if_neg (by omega), if_pos (by omega)]
    rfl
  · rw [if_neg h, recompute, if_neg (show ¬ (23 ≤ idx ∧ idx ≤ 24) by omega)]
    split_ifs <;> rfl

theorem recompute_lfo2 (s : State) (idx : Nat) :
    (recompute s idx).lfo2 =
      if idx = 25 ∨ idx = 26 then { s.lfo2 with wave := readPatch s 25, inc := lfoIncrement s .lfo2 } else s.lfo2 := by
  by_cases h : idx = 25 ∨ idx = 26
  · rw [if_pos h, recompute, if_neg (by omega), if_neg (by omega), if_neg (by omega), if_neg (by omega), if_pos (by omega)]
    rfl
  · rw [if_neg h, recompute, if_neg (show ¬ (25 ≤ idx ∧ idx ≤ 26) by omega)]
    split_ifs <;> rfl

theorem recompute_recompute (s : State) (idx : Nat) : recompute (recompute s idx) idx = recompute s idx := by
  unfold recompute
  split_ifs <;> rfl

/-! ## The write -/

theorem setParam_of_le {idx : Nat} (h : patchSize s.cfg ≤ idx) (val : Byte) : setParam s idx val = s :=
  if_neg (Nat.not_lt.mpr h)

theorem setParam_of_lt {idx : Nat} (h : idx < patchSize s.cfg) (val : Byte) :
    setParam s idx val = recompute (writePatch s idx val) idx := if_pos h

theorem readPatch_writePatch (h : s.storesOk) (idx : Nat) (val : Byte) (a : Nat) :
    readPatch (writePatch s idx val) a = if a = idx then val else readPatch s a := by
  split
  · next ha =>
    rw [ha]
    exact readPatch_writePatch_self h.1
  · next ha => exact readPatch_writePatch_other ha

/-- Writing the byte that a canonical memory already reads leaves it. -/
theorem Memory.write_write {dflt : Nat → Byte} {size a : Nat} {m : Memory} (hm : Memory.wf dflt size m = true) (ha : a < size)
    (x : Byte) : Memory.write dflt (Memory.write dflt m a x) a x = Memory.write dflt m a x := by
  have hw : Memory.wf dflt size (Memory.write dflt m a x) = true := Memory.wf_write hm ha
  refine Memory.ext_of_wf (Memory.wf_write hw ha) hw fun b => ?_
  by_cases hb : b = a
  · rw [hb, Memory.read_write_self hw, Memory.read_write_self hm]
  · exact Memory.read_write_other hb

theorem writePatch_eq_self {idx : Nat} {val : Byte} (h : Memory.write (defaultPatchByte s.cfg) s.patch idx val = s.patch) :
    writePatch s idx val = s := by
  rw [writePatch, h]

/-- The same parameter write again finds the byte stored and its row recomputed. -/
theorem setParam_setParam (h : s.storesOk) (idx : Nat) (val : Byte) :
    setParam (setParam s idx val) idx val = setParam s idx val := by
  by_cases hlt : idx < patchSize s.cfg
  · have hpatch : Memory.write (defaultPatchByte s.cfg) (setParam s idx val).patch idx val = (setParam s idx val).patch := by
      rw [setParam_patch, if_pos hlt]
      exact Memory.write_write h.1 hlt val
    rw [setParam_of_lt (by simpa using hlt), writePatch_eq_self (by simpa using hpatch), setParam_of_lt hlt,
      recompute_recompute]
  · have hle : patchSize s.cfg ≤ idx := Nat.not_lt.mp hlt
    rw [setParam_of_le hle, setParam_of_le hle]

/-- Settles O19: a write inside the patch is the byte's write, then its row of the recomputation. -/
theorem setParameterStoresAndRecomputes : Obligations.SetParameterStoresAndRecomputes := by
  intro s idx val hs
  refine ⟨fun hle => congrArg Host.Outcome.next (setParam_of_le hle val), fun hlt => ?_⟩
  have hread : ∀ a, readPatch (setParam s idx.toNat val) a = if a = idx.toNat then val else readPatch s a := fun a => by
    rw [setParam_of_lt hlt, readPatch_recompute, readPatch_writePatch hs]
  refine ⟨setParam s idx.toNat val, rfl, hread, ?_, ?_, ?_, ?_, congrArg Host.Outcome.next (setParam_setParam hs _ val)⟩
  · rw [setParam_of_lt hlt]
    exact recompute_eq (writePatch s idx.toNat val) idx.toNat
  · rw [setParam_of_lt hlt, readPatch_recompute, recompute_voice]
    have hat : ∀ a, idx.toNat = a → readPatch (writePatch s idx.toNat val) a = val := fun a ha => by
      rw [readPatch_writePatch hs, if_pos ha.symm]
    simp only [Envelope.recompute_eq]
    exact ite_congr rfl (fun h => by rw [hat 0 h]; rfl) fun _ => ite_congr rfl (fun h => by rw [hat 4 h]; rfl) fun _ => rfl
  · rw [setParam_of_lt hlt, readPatch_recompute, lfoIncrement_recompute]
    exact recompute_lfo1 _ _
  · rw [setParam_of_lt hlt, readPatch_recompute, lfoIncrement_recompute]
    exact recompute_lfo2 _ _

end Sys2Proof.Machine
end

section
/-! The bits of a word that its command's format names (R141, R145): which command words stand for, the encoder's word of a
decoded command, and the written-out words of the opcode map. -/

namespace Sys2Proof

/-! ## Masked words -/

/-- Each layout of R141 under its mask: the bits the format names keep their places, every other bit is 0. -/
theorem layouts_eq_masked (w : Word) :
    wordOp w ++ 0#24 = w &&& 0xFF000000 ∧
      wordOp w ++ 0#4 ++ wordCh w ++ 0#1 ++ wordK w ++ 0#1 ++ wordV w = w &&& 0xFF0F7F7F ∧
      wordOp w ++ 0#4 ++ wordCh w ++ 0#2 ++ wordV14 w = w &&& 0xFF0F3FFF ∧
      wordOp w ++ 0#4 ++ wordCh w ++ 0#16 = w &&& 0xFF0F0000 ∧
      wordOp w ++ 0#16 ++ wordB w = w &&& 0xFF0000FF ∧
      wordOp w ++ wordIdx w ++ wordB w = w &&& 0xFFFFFFFF ∧
      wordOp w ++ wordIdx w ++ 0#8 = w &&& 0xFFFFFF00 ∧
      wordOp w ++ wordN w ++ 0#8 ++ wordB w = w &&& 0xFFFF00FF := by
  refine ⟨?_, ?_, ?_, ?_, ?_, ?_, ?_, ?_⟩ <;>
    (refine BitVec.eq_of_getLsbD_eq fun i hi => ?_
     simp only [wordOp, wordCh, wordK, wordV, wordV14, wordB, wordIdx, wordN, BitVec.getLsbD_append, BitVec.getLsbD_extractLsb',
       BitVec.getLsbD_and]
     interval_cases i <;> simp)

/-- The encoder's word of a decoded command is the word with every ignored bit 0 (R145, R147). -/
theorem encode_of_decode {w : Word} {i : Instr} (h : decode w = .ok i) : encode i = w &&& i.namedBits := by
  have hop : ∀ n, (wordOp w).toNat = n → wordOp w = BitVec.ofNat 8 n := fun n h => by
    rw [← h, BitVec.ofNat_toNat, BitVec.setWidth_eq]
  have hlayout := layouts_eq_masked w
  unfold decode at h
  split at h <;> rename_i hrow <;> cases h <;> rw [hop _ hrow] at hlayout <;>
    obtain ⟨hnone, hnote, hbend, hchannel, hbyte, hparam, hget, hcv⟩ := hlayout
  case h_1 | h_11 | h_13 | h_16 | h_17 | h_18 | h_19 | h_20 | h_21 => exact hnone
  case h_2 | h_3 | h_4 => exact hnote
  case h_5 => exact hbend
  case h_6 | h_7 | h_8 | h_9 | h_10 => exact hchannel
  case h_12 => exact hbyte
  case h_14 => exact hparam
  case h_15 => exact hget
  case h_22 => exact hcv

/-- The mask of an opcode's format (R141). -/
def namedBitsOf (op : Byte) : Word :=
  match op.toNat with
  | 0x01 | 0x02 | 0x03 => 0xFF0F7F7F
  | 0x04 => 0xFF0F3FFF
  | 0x05 | 0x06 | 0x07 | 0x08 | 0x09 => 0xFF0F0000
  | 0x0B => 0xFF0000FF
  | 0x0D => 0xFFFFFFFF
  | 0x0E => 0xFFFFFF00
  | 0x15 => 0xFFFF00FF
  | _ => 0xFF000000

theorem namedBits_eq (i : Instr) : i.namedBits = namedBitsOf i.opcode := by cases i <;> rfl

/-- Every format names the opcode. -/
theorem wordOp_masked (w : Word) (i : Instr) : wordOp (w &&& i.namedBits) = wordOp w := by
  have hmask : i.namedBits.extractLsb' 24 8 = BitVec.allOnes 8 := by
    rw [namedBits_eq, namedBitsOf]
    split <;> rfl
  rw [wordOp, BitVec.extractLsb'_and, hmask, BitVec.and_allOnes, wordOp]

/-! ## What a word decodes to -/

theorem opcode_of_decode {w : Word} {i : Instr} (h : decode w = .ok i) : i.opcode = wordOp w := by
  rw [← wordOp_encode, encode_of_decode h, wordOp_masked]

theorem wordOp_le_of_decode {w : Word} {i : Instr} (h : decode w = .ok i) : (wordOp w).toNat ≤ 0x15 := by
  by_contra hlt
  rw [Machine.decode_of_reserved (by omega)] at h
  cases h

theorem exists_decode_of_le {w : Word} (h : (wordOp w).toNat ≤ 0x15) : ∃ i, decode w = .ok i ∧ i.opcode = wordOp w := by
  have hrow : ∃ i, decode w = .ok i := by
    unfold decode
    generalize (wordOp w).toNat = n at h
    interval_cases n <;> exact ⟨_, rfl⟩
  obtain ⟨i, hi⟩ := hrow
  exact ⟨i, hi, opcode_of_decode hi⟩

/-- A command's word read from its named bits alone. -/
theorem decode_eq_iff (w : Word) (i : Instr) : decode w = .ok i ↔ w &&& i.namedBits = encode i := by
  refine ⟨fun h => (encode_of_decode h).symm, fun h => ?_⟩
  have hop : wordOp w = i.opcode := by rw [← wordOp_encode, ← h, wordOp_masked]
  have hle : (wordOp w).toNat ≤ 0x15 := hop ▸ wordOp_encode i ▸ wordOp_le_of_decode (decode_encode i)
  obtain ⟨j, hj, hjop⟩ := exists_decode_of_le hle
  have hbits : j.namedBits = i.namedBits := by rw [namedBits_eq, namedBits_eq, hjop, hop]
  have hij : encode j = encode i := by rw [encode_of_decode hj, hbits, h]
  rw [hj, ← decode_encode j, hij, decode_encode]

/-- Settles O3: `decode` gives a command exactly when the named bits are those of the encoder's word. -/
theorem ignoredBitsChangeNothing : Obligations.IgnoredBitsChangeNothing :=
  ⟨fun w w' i h hbits => (decode_eq_iff w' i).mpr (hbits ▸ (decode_eq_iff w i).mp h), fun _ => exists_decode_of_le,
    fun _ _ => encode_of_decode⟩

/-- Settles O1: each word is the encoder's word of its command, under the format's mask. -/
theorem wordsOfTheSpecDecode : Obligations.WordsOfTheSpecDecode := by
  unfold Obligations.WordsOfTheSpecDecode
  simp only [decode_eq_iff]
  decide

end Sys2Proof
end

section
/-! The response register (R156, R441) and the reserved words (R144). -/

namespace Sys2Proof.Machine

variable {s t : State}

/-- A channel command leaves what its body leaves. -/
theorem onChannel_resp (ch : BitVec 4) {f : State → State} (h : (f s).eng.resp = s.eng.resp) :
    (onChannel ch f s).eng.resp = s.eng.resp := by
  unfold onChannel
  split
  · exact h
  · rfl

theorem noteOnBody_eng (k v : BitVec 7) (s : State) : (noteOnBody k v s).eng = s.eng := by
  unfold noteOnBody
  split <;> simp

theorem ctlClock_eng (s : State) : (ctlClock s).eng = s.eng := by
  unfold ctlClock
  split
  · split <;> rfl
  · rfl

theorem sysexEndBody_eng (s : State) : (sysexEndBody s).eng = s.eng := by
  unfold sysexEndBody
  split
  · split
    · simp [commit]
    · rfl
  · rfl

theorem Engine.setCv_resp (e : Engine) (n : Nat) (val : Byte) : (e.setCv n val).resp = e.resp := by
  unfold Engine.setCv
  split <;> rfl

theorem renderBlock_resp (s : State) :
    (if roomForBlock s then runSubSteps (blockSteps s.cfg) s else s).eng.resp = s.eng.resp := by
  split
  · exact (runSubSteps_frame _ s).2
  · rfl

/-- A command other than GET_PARAMETER and AUDIO leaves the response register (R156). -/
theorem exec_resp {i : Instr} (ht : exec i s = .next t) (haudio : i ≠ .audio) (hget : ∀ idx, i ≠ .getParameter idx) :
    t.eng.resp = s.eng.resp := by
  cases i <;> cases ht
  case getParameter idx => exact absurd rfl (hget idx)
  case audio => exact absurd rfl haudio
  case noteOn ch k v => exact onChannel_resp ch (congrArg Engine.resp (noteOnBody_eng k v s))
  case noteOff ch k _ => exact onChannel_resp ch (by simp)
  case controlChange ch k v => exact onChannel_resp ch (by simp)
  case pitchBend ch _ | allSoundOff ch | allNotesOff ch | resetAllControllers ch | omniModeOn ch | omniModeOff ch =>
    exact onChannel_resp ch rfl
  case sysexEnd => exact congrArg Engine.resp (sysexEndBody_eng s)
  case setParameter idx val => simp
  case clock => exact congrArg Engine.resp (ctlClock_eng s)
  case control => exact (runSubSteps_frame cvWrites (controlCore s)).2.trans (by simp)
  case renderBlock => exact renderBlock_resp s
  case setCvInput n val => exact s.eng.setCv_resp n.toNat val
  case nop | sysexStart | sysexByte _ | start | stop => rfl

/-- Settles O8: the two commands answer through `resp`, and the frame of every other one holds it. -/
theorem onlyTwoCommandsWriteResp : Obligations.OnlyTwoCommandsWriteResp :=
  ⟨fun _ _ => rfl, fun s => ⟨_, execAudio_eq s, rfl⟩, fun _ _ _ => exec_resp⟩

/-- Settles O4: the decoder rejects a reserved word by name, and the port runs it as NOP. -/
theorem reservedOpcodesExecuteAsNop : Obligations.ReservedOpcodesExecuteAsNop :=
  ⟨fun _ => rfl, fun _ h => ⟨decode_of_reserved h, fun s => ⟨runWord_of_reserved h s, runWord_of_reserved h s⟩⟩⟩

end Sys2Proof.Machine
end

section
/-! A whole transfer on the SysEx receiver (46_patch_transfer.md R491 to R502): the header, a patch as nibble pairs, any
checksum byte, and what SYSEX_END then does. -/

namespace Sys2Proof.Machine

variable {c : Config} {r : Receiver} {s : State} {p : List Byte}

/-! ## The frame as bytes (R148) -/

/-- The two SYSEX_BYTE operands of a byte, high nibble first. -/
def nibbleBytes (x : Byte) : List Byte := [BitVec.setWidth 8 (x.extractLsb' 4 4), BitVec.setWidth 8 (x.extractLsb' 0 4)]

/-- The SYSEX_BYTE operands of a frame with patch `p` and checksum byte `k`. -/
def frameBytes (c : Config) (p : List Byte) (k : Byte) : List Byte :=
  c.sysexHeader ++ (p.flatMap nibbleBytes ++ nibbleBytes k)

theorem nibbleCommands_eq (x : Byte) : nibbleCommands x = (nibbleBytes x).map .sysexByte := rfl

theorem loadPatchCommands_eq (c : Config) (p : List Byte) :
    loadPatchCommands c p = .sysexStart :: ((frameBytes c p (byteSum p)).map .sysexByte ++ [.sysexEnd]) := by
  have hdata : p.flatMap nibbleCommands = (p.flatMap nibbleBytes).map .sysexByte := by
    rw [List.map_flatMap]
    rfl
  simp only [loadPatchCommands, frameBytes, nibbleCommands_eq, hdata, List.map_append, List.append_assoc, List.cons_append]

theorem execAll_sysexBytes (bs : List Byte) (is : List Instr) (s : State) :
    execAll (bs.map .sysexByte ++ is) s = execAll is (s.setRx (bs.foldl (Receiver.byteStep s.cfg) s.rx)) := by
  induction bs generalizing s with
  | nil => rfl
  | cons b bs ih => exact ih (s.setRx (s.rx.byteStep s.cfg b))

/-- SYSEX_START, bytes and SYSEX_END leave what SYSEX_END does with the receiver after the bytes. -/
theorem execAll_transfer (bs : List Byte) (s : State) :
    execAll (.sysexStart :: (bs.map .sysexByte ++ [.sysexEnd])) s =
      .next (sysexEndBody (s.setRx (bs.foldl (Receiver.byteStep s.cfg) s.rx.begin))) :=
  execAll_sysexBytes bs [.sysexEnd] (s.setRx s.rx.begin)

/-! ## The header (R492) -/

theorem storeU16_toNat {reg : Reg16} {n : Nat} (h : n < 65536) : (storeU16 reg n).toNat = n := by
  rw [storeU16, if_pos h, BitVec.toNat_ofNat, Nat.mod_eq_of_lt h]

/-- A header byte that matches advances the position, or begins the data. -/
theorem byteStep_header {j : Nat} {b : Byte} (hr : r.state = .header) (hpos : r.pos.toNat = j)
    (hb : c.sysexHeader[j]? = some b) (hfit : c.sysexHeader.length < 65536) :
    r.byteStep c b = if j + 1 = c.sysexHeader.length then { r with state := .data, pos := 0 }
      else { r with pos := storeU16 .rxPos (j + 1) } := by
  have hj : j < c.sysexHeader.length := (List.getElem?_eq_some_iff.mp hb).1
  have hmatch : headerByte c j = b := by rw [headerByte, hb, Option.getD_some]
  simp only [Receiver.byteStep, hr, Receiver.headerStep, hpos, hmatch, ne_eq, not_true_eq_false, if_false,
    storeU16_toNat (show j + 1 < 65536 by omega)]

theorem foldl_byteStep_header (hfit : c.sysexHeader.length < 65536) {pre suf : List Byte} (hsuf : suf ≠ [])
    (hsplit : c.sysexHeader = pre ++ suf) (hr : r.state = .header) (hpos : r.pos.toNat = pre.length) :
    suf.foldl (Receiver.byteStep c) r = { r with state := .data, pos := 0 } := by
  induction suf generalizing pre r with
  | nil => exact absurd rfl hsuf
  | cons b suf ih =>
    have hlen : c.sysexHeader.length = pre.length + (suf.length + 1) := by rw [hsplit, List.length_append, List.length_cons]
    rw [List.foldl_cons, byteStep_header hr hpos (by simp [hsplit]) hfit]
    split
    · next hlast => rw [List.length_eq_zero_iff.mp (show suf.length = 0 by omega), List.foldl_nil]
    · next hmore =>
      have hpos' : (storeU16 .rxPos (pre.length + 1)).toNat = (pre ++ [b]).length := by
        rw [storeU16_toNat (by omega), List.length_append, List.length_singleton]
      exact ih (fun h => hmore (by simp [hlen, h])) (by simp [hsplit]) (r := { r with pos := _ }) hr hpos'

/-! ## Nibble pairs (R492) -/

theorem nibblePair_extract (x : Byte) : nibblePair (x.extractLsb' 4 4) (x.extractLsb' 0 4) = x := by
  rw [nibblePair, BitVec.extractLsb'_append_extractLsb'_eq_extractLsb' (show 4 = 0 + 4 from rfl)]
  exact BitVec.extractLsb'_eq_self

theorem nibbleAt_high {k : Nat} (hk : k ≤ patchSize c) (n : BitVec 4) : r.nibbleAt c (2 * k) n = some { r with hi := n } := by
  unfold Receiver.nibbleAt frameNibbles
  split
  · rw [if_pos (by omega)]
  · rw [if_pos (by omega)]

theorem nibbleAt_low {k : Nat} (hk : k < patchSize c) (n : BitVec 4) :
    r.nibbleAt c (2 * k + 1) n = some { r with
      buf := Memory.write rxDefaultByte r.buf k (nibblePair r.hi n)
      sum := r.sum + nibblePair r.hi n } := by
  rw [Receiver.nibbleAt, frameNibbles, if_pos (by omega), if_neg (by omega), show (2 * k + 1) / 2 = k by omega]

theorem nibbleAt_checksum_low (n : BitVec 4) :
    r.nibbleAt c (2 * patchSize c + 1) n = some { r with cks := nibblePair r.hi n } := by
  rw [Receiver.nibbleAt, frameNibbles, if_neg (by omega), if_neg (by omega), if_pos rfl]

theorem byteStep_nibble {r' : Receiver} {j : Nat} {n : BitVec 4} (hr : r.state = .data) (hpos : r.pos.toNat = j)
    (h : r.nibbleAt c j n = some r') :
    r.byteStep c (BitVec.setWidth 8 n) = { r' with pos := storeU16 .rxPos (j + 1) } := by
  have hn := n.isLt
  have hle : ¬ 0x0F < (BitVec.setWidth 8 n).toNat := by
    rw [BitVec.toNat_setWidth]
    omega
  have hlow : (BitVec.setWidth 8 n).extractLsb' 0 4 = n := by
    refine BitVec.eq_of_toNat_eq ?_
    rw [lowNibble_toNat, BitVec.toNat_setWidth]
    omega
  simp only [Receiver.byteStep, hr, Receiver.dataStep, if_neg hle, hlow, hpos, h]

/-- The two nibbles of a byte, from an even position: the high one waits in `hi` for the low one. -/
theorem foldl_byteStep_pair {r' : Receiver} {k : Nat} {x : Byte} (hr : r.state = .data) (hpos : r.pos.toNat = 2 * k)
    (hk : k ≤ patchSize c) (hfit : 2 * patchSize c + 2 < 65536)
    (hlow : Receiver.nibbleAt c { r with hi := x.extractLsb' 4 4, pos := storeU16 .rxPos (2 * k + 1) } (2 * k + 1)
      (x.extractLsb' 0 4) = some r') :
    (nibbleBytes x).foldl (Receiver.byteStep c) r = { r' with pos := storeU16 .rxPos (2 * k + 2) } := by
  have hpos' : (storeU16 .rxPos (2 * k + 1)).toNat = 2 * k + 1 :=
    storeU16_toNat ((show 2 * k + 1 < 2 * patchSize c + 2 by omega).trans hfit)
  show ((r.byteStep c _).byteStep c _) = _
  rw [byteStep_nibble hr hpos (nibbleAt_high hk _)]
  exact byteStep_nibble hr hpos' hlow

/-! ## The data and the checksum (R492, R495) -/

theorem byteSum_append_singleton (p : List Byte) (x : Byte) : byteSum (p ++ [x]) = byteSum p + x := by
  rw [byteSum, List.foldl_append, byteSum, List.foldl_cons, List.foldl_nil]

/-- The receiver has taken in the bytes `p` as data. -/
structure Receiver.Holds (c : Config) (r : Receiver) (p : List Byte) : Prop where
  state : r.state = .data
  pos   : r.pos.toNat = 2 * p.length
  wf    : Memory.wf rxDefaultByte (patchSize c) r.buf = true
  buf   : ∀ a < p.length, Memory.read rxDefaultByte r.buf a = p.getD a 0
  sum   : r.sum = byteSum p

theorem Receiver.Holds.push (h : r.Holds c p) (hlt : p.length < patchSize c) (hfit : 2 * patchSize c + 2 < 65536)
    (x : Byte) : Receiver.Holds c ((nibbleBytes x).foldl (Receiver.byteStep c) r) (p ++ [x]) := by
  rw [foldl_byteStep_pair h.state h.pos (Nat.le_of_lt hlt) hfit (nibbleAt_low hlt _), nibblePair_extract]
  refine ⟨h.state, ?_, Memory.wf_write h.wf hlt, fun a ha => ?_, ?_⟩
  · rw [storeU16_toNat (by omega), List.length_append, List.length_singleton]
    omega
  · rw [List.length_append, List.length_singleton] at ha
    by_cases hlast : a = p.length
    · rw [hlast, Memory.read_write_self h.wf, List.getD_append_right _ _ _ _ (le_refl _), Nat.sub_self, List.getD_cons_zero]
    · rw [Memory.read_write_other hlast, h.buf a (by omega), List.getD_append _ _ _ _ (by omega)]
  · rw [byteSum_append_singleton, ← h.sum]

theorem Receiver.Holds.append (h : r.Holds c p) {q : List Byte} (hle : p.length + q.length ≤ patchSize c)
    (hfit : 2 * patchSize c + 2 < 65536) :
    Receiver.Holds c ((q.flatMap nibbleBytes).foldl (Receiver.byteStep c) r) (p ++ q) := by
  induction q generalizing p r with
  | nil => rwa [List.append_nil]
  | cons x q ih =>
    rw [List.length_cons] at hle
    rw [List.flatMap_cons, List.foldl_append, List.append_cons]
    exact ih (h.push (by omega) hfit x) (by rw [List.length_append, List.length_singleton]; omega)

/-- The receiver has taken in a whole frame: the patch `p` and the checksum byte `k`. -/
structure Receiver.HoldsFrame (c : Config) (r : Receiver) (p : List Byte) (k : Byte) : Prop where
  state : r.state = .data
  pos   : r.pos.toNat = frameNibbles c + 2
  buf   : ∀ a < patchSize c, Memory.read rxDefaultByte r.buf a = p.getD a 0
  sum   : r.sum = byteSum p
  cks   : r.cks = k

theorem Receiver.Holds.checksum (h : r.Holds c p) (hlen : p.length = patchSize c) (hfit : 2 * patchSize c + 2 < 65536)
    (k : Byte) : Receiver.HoldsFrame c ((nibbleBytes k).foldl (Receiver.byteStep c) r) p k := by
  rw [foldl_byteStep_pair h.state (hlen ▸ h.pos) (le_refl _) hfit (nibbleAt_checksum_low _), nibblePair_extract]
  exact ⟨h.state, storeU16_toNat hfit, hlen ▸ h.buf, h.sum, rfl⟩

/-- After SYSEX_START the bytes of a frame leave its patch and its checksum in the receiver. -/
theorem holdsFrame_of_frameBytes (hwf : Memory.wf rxDefaultByte (patchSize c) r.buf = true) (hlen : p.length = patchSize c)
    (hne : c.sysexHeader ≠ []) (hheader : c.sysexHeader.length < 65536) (hfit : 2 * patchSize c + 2 < 65536) (k : Byte) :
    Receiver.HoldsFrame c ((frameBytes c p k).foldl (Receiver.byteStep c) r.begin) p k := by
  have hbegun : Receiver.Holds c { r.begin with state := .data, pos := 0 } [] :=
    ⟨rfl, rfl, hwf, fun a ha => absurd ha (Nat.not_lt_zero a), rfl⟩
  rw [frameBytes, List.foldl_append, List.foldl_append,
    foldl_byteStep_header (pre := []) hheader hne (List.nil_append _).symm rfl rfl]
  have hdata := hbegun.append (q := p) (by rw [List.length_nil]; omega) hfit
  exact hdata.checksum hlen hfit k

/-! ## SYSEX_END of a whole frame (R495, R500, R502) -/

theorem validBuf_congr {f g : Nat → Byte} (h : ∀ a < patchSize c, f a = g a) : validBuf c f = validBuf c g := by
  have hparams : ∀ i < 31, f i = g i := fun i hi => h i (by simp only [patchSize, offName, offSeq]; omega)
  have hname : ∀ i < 8, f (offName c + i) = g (offName c + i) := fun i hi => h _ (Nat.add_lt_add_left hi _)
  rw [Bool.eq_iff_iff]
  simp only [validBuf, Bool.and_eq_true, List.all_eq_true, List.mem_range]
  exact and_congr (forall₂_congr fun i hi => by rw [hparams i hi]) (forall₂_congr fun i hi => by rw [hname i hi])

theorem transferOk_of_holdsFrame {k : Byte} (h : s.rx.HoldsFrame s.cfg p k) :
    transferOk s = (decide (k = byteSum p) && validBuf s.cfg (fun a => p.getD a 0)) := by
  have hvalid : validBuf s.cfg (readRx s) = validBuf s.cfg (fun a => p.getD a 0) := validBuf_congr h.buf
  rw [transferOk, h.state, h.pos, h.cks, h.sum, hvalid, decide_eq_true rfl, decide_eq_true rfl, Bool.true_and, Bool.true_and]

theorem sysexEndBody_of_transferOk (h : transferOk s = true) :
    sysexEndBody s = (commit s).setRx { (commit s).rx with state := .success } := by
  have hdata : s.rx.state = .data := by
    simp only [transferOk, Bool.and_eq_true, decide_eq_true_eq] at h
    exact h.1.1.1
  rw [sysexEndBody, if_pos (.inr hdata), if_pos h]

theorem sysexEndBody_of_not_transferOk (hdata : s.rx.state = .data) (h : transferOk s = false) :
    sysexEndBody s = s.setRx s.rx.fail := by
  rw [sysexEndBody, if_pos (.inr hdata), if_neg (by simp [h])]

/-- The committed patch is the receive buffer (R500). -/
theorem readPatch_commit {a : Nat} (ha : a < patchSize s.cfg) : readPatch (commit s) a = readRx s a := by
  rw [commit, readPatch_eq_of_patch (recomputeAll_frame _).1 (recomputeAll_frame _).2.1]
  exact Memory.read_ofFn.trans (if_pos ha)

/-- Settles O59: the frame of LOAD_PATCH fills the receiver with the patch and its own sum, so validity alone decides. -/
theorem loadPatchRoundTrip : Obligations.LoadPatchRoundTrip := by
  intro s p hstores hlen hne hheader hfit
  have hframe := holdsFrame_of_frameBytes hstores.2 hlen hne hheader hfit (byteSum p)
  rw [loadPatchCommands_eq, execAll_transfer]
  generalize (frameBytes s.cfg p (byteSum p)).foldl (Receiver.byteStep s.cfg) s.rx.begin = r at hframe ⊢
  have hok : transferOk (s.setRx r) = validBuf s.cfg (fun a => p.getD a 0) := by
    rw [transferOk_of_holdsFrame (s := s.setRx r) hframe, decide_eq_true rfl, Bool.true_and, setRx_cfg]
  refine ⟨_, rfl, fun hvalid => ?_, fun hinvalid => ?_⟩
  · rw [sysexEndBody_of_transferOk (hok.trans hvalid)]
    exact ⟨rfl, fun a ha => (readPatch_commit (s := s.setRx r) ha).trans (hframe.buf a ha)⟩
  · rw [sysexEndBody_of_not_transferOk hframe.state (hok.trans hinvalid)]
    exact ⟨rfl, rfl⟩

end Sys2Proof.Machine
end

section
/-! The envelopes (40_envelope.md R200 to R215) and the two commands that end a note at once: a stage of an envelope as a count
of equal moves toward its target, ALL_NOTES_OFF as a release (R432), and the silence that ALL_SOUND_OFF leaves (R431). -/

namespace Sys2Proof.Machine

/-! ## One move toward a target (R202) -/

/-- A target within one increment is reached, whichever side it lies on. -/
theorem toward_of_dist_le {v t inc : Nat} (h : Nat.dist v t ≤ inc) : toward v t inc = t := by
  unfold Nat.dist at h
  unfold toward
  split
  · omega
  · split <;> omega

/-- A target further away comes nearer by the whole increment. -/
theorem dist_toward {v t inc : Nat} (h : inc < Nat.dist v t) : Nat.dist (toward v t inc) t = Nat.dist v t - inc := by
  unfold Nat.dist at h ⊢
  unfold toward
  split
  · omega
  · split <;> omega

theorem toward_bounds_of_le {v t : Nat} (h : v ≤ t) (inc : Nat) : v ≤ toward v t inc ∧ toward v t inc ≤ t := by
  unfold toward
  split
  · omega
  · rw [if_neg (by omega)]; omega

theorem toward_of_ge {v t : Nat} (h : t ≤ v) (inc : Nat) : toward v t inc = max (v - inc) t := by
  unfold toward
  rw [if_neg (by omega)]
  split <;> omega

theorem toward_le_max (v t inc : Nat) : toward v t inc ≤ max v t := by
  rcases Nat.le_total v t with h | h
  · exact (toward_bounds_of_le h inc).2.trans (le_max_right v t)
  · rw [toward_of_ge h]; omega

/-! ## One render (R206) -/

variable {e : Envelope}

theorem Envelope.render_of_attack (h : e.stage = .attack) : e.render = e.moveTo fullScale e.incA .decay := by
  simp only [Envelope.render, h]

theorem Envelope.render_of_decay (h : e.stage = .decay) : e.render = e.moveTo e.sus.toNat e.incD .sustain := by
  simp only [Envelope.render, h]

theorem Envelope.render_of_release (h : e.stage = .release) : e.render = e.moveTo 0 e.incR .dead := by
  simp only [Envelope.render, h]

/-- SUSTAIN and DEAD hold. -/
theorem Envelope.render_of_rest (h : e.stage = .sustain ∨ e.stage = .dead) : e.render = e := by
  rcases h with h | h <;> simp only [Envelope.render, h]

/-- A move does not overflow the 14-bit value. -/
theorem Envelope.moveTo_value_toNat {t : Nat} (ht : t ≤ fullScale) (inc : Nat) (after : Stage) :
    (e.moveTo t inc after).value.toNat = toward e.value.toNat t inc := by
  have hle := toward_le_max e.value.toNat t inc
  have hv := e.value.isLt
  unfold fullScale at ht
  simp only [Envelope.moveTo, BitVec.toNat_ofNat]
  exact Nat.mod_eq_of_lt (by omega)

theorem Envelope.moveTo_stage {t : Nat} (ht : t ≤ fullScale) (inc : Nat) (after : Stage) :
    (e.moveTo t inc after).stage = if (e.moveTo t inc after).value.toNat = t then after else e.stage := by
  rw [Envelope.moveTo_value_toNat ht]
  rfl

/-- A render changes the stage and the value only. -/
theorem Envelope.render_eq (e : Envelope) : e.render = { e with stage := e.render.stage, value := e.render.value } := by
  unfold Envelope.render
  split <;> rfl

/-! ## A whole stage (R215) -/

/-- The renders that a stage takes over a distance: an increment each, and one even where there is nothing to cover. -/
def movesFor (d inc : Nat) : Nat := if d = 0 then 1 else (d + inc - 1) / inc

theorem movesFor_of_le {d inc : Nat} (hinc : 1 ≤ inc) (h : d ≤ inc) : movesFor d inc = 1 := by
  unfold movesFor
  split
  · rfl
  · exact Nat.div_eq_of_lt_le (by omega) (by omega)

theorem movesFor_of_gt {d inc : Nat} (hinc : 1 ≤ inc) (h : inc < d) : movesFor d inc = movesFor (d - inc) inc + 1 := by
  unfold movesFor
  rw [if_neg (by omega), if_neg (by omega), ← Nat.add_div_right _ hinc]
  congr 1
  omega

/-- A stage whose renders, at every value, move toward `t` by `inc` stays for all but the last of `movesFor` renders and leaves
at `t`: a move either reaches `t` or takes `inc` off the distance. -/
theorem Envelope.renders_until_target {st after : Stage} {t inc : Nat} (hst : e.stage = st) (ht : t ≤ fullScale)
    (hinc : 1 ≤ inc) (hmove : ∀ v, { e with value := v }.render = { e with value := v }.moveTo t inc after)
    {d : Nat} (v : BitVec 14) (hd : Nat.dist v.toNat t = d) :
    (∀ k < movesFor d inc, (Envelope.renders k { e with value := v }).stage = st) ∧
      Envelope.renders (movesFor d inc) { e with value := v } = { e with stage := after, value := BitVec.ofNat 14 t } := by
  induction d using Nat.strong_induction_on generalizing v with
  | _ d ih =>
    subst hd
    by_cases hle : Nat.dist v.toNat t ≤ inc
    · rw [movesFor_of_le hinc hle]
      refine ⟨fun k hk => ?_, ?_⟩
      · obtain rfl : k = 0 := by omega
        exact hst
      · change { e with value := v }.render = _
        rw [hmove]
        simp only [Envelope.moveTo, toward_of_dist_le hle, if_true]
    · have hgt := Nat.lt_of_not_le hle
      have hnear := dist_toward hgt
      have hstay : toward v.toNat t inc ≠ t := fun h => by rw [h, Nat.dist_self] at hnear; omega
      have hnext : { e with value := v }.render = { e with value := BitVec.ofNat 14 (toward v.toNat t inc) } := by
        rw [hmove]
        simp only [Envelope.moveTo, hstay, if_false]
      have hval := Envelope.moveTo_value_toNat (e := { e with value := v }) ht inc after
      obtain ⟨hstage, hend⟩ := ih _ (by omega) (BitVec.ofNat 14 (toward v.toNat t inc))
        ((congrArg (Nat.dist · t) hval).trans hnear)
      rw [movesFor_of_gt hinc hgt]
      refine ⟨fun k hk => ?_, ?_⟩
      · cases k with
        | zero => exact hst
        | succ k => rw [Envelope.renders, hnext]; exact hstage k (by omega)
      · rw [Envelope.renders, hnext, hend]

theorem dist_fullScale (v : BitVec 14) : Nat.dist v.toNat fullScale = 16383 - v.toNat :=
  Nat.dist_eq_sub_of_le (Nat.le_of_lt_succ v.isLt)

theorem Envelope.attack_ends (h : e.stage = .attack) (hinc : 1 ≤ e.incA) :
    (∀ k < movesFor (16383 - e.value.toNat) e.incA, (Envelope.renders k e).stage = .attack) ∧
      Envelope.renders (movesFor (16383 - e.value.toNat) e.incA) e = { e with stage := .decay, value := 16383 } :=
  renders_until_target h (le_refl fullScale) hinc (fun _ => render_of_attack h) e.value (dist_fullScale e.value)

theorem Envelope.release_ends (h : e.stage = .release) (hinc : 1 ≤ e.incR) :
    (∀ k < movesFor e.value.toNat e.incR, (Envelope.renders k e).stage = .release) ∧
      Envelope.renders (movesFor e.value.toNat e.incR) e = { e with stage := .dead, value := 0 } :=
  renders_until_target h (Nat.zero_le fullScale) hinc (fun _ => render_of_release h) e.value (Nat.dist_zero_right _)

theorem movesFor_attack (v : BitVec 14) (inc : Nat) :
    movesFor (16383 - v.toNat) inc = if v.toNat = 16383 then 1 else (16383 - v.toNat + inc - 1) / inc := by
  have hiff : 16383 - v.toNat = 0 ↔ v.toNat = 16383 := by have := v.isLt; omega
  simp only [movesFor, hiff]

/-! ## The bounds of one render (R206, R215) -/

theorem Envelope.render_attack_ge (h : e.stage = .attack) : e.value.toNat ≤ e.render.value.toNat := by
  rw [Envelope.render_of_attack h, Envelope.moveTo_value_toNat (le_refl fullScale)]
  exact (toward_bounds_of_le (Nat.le_of_lt_succ e.value.isLt) e.incA).1

theorem Envelope.render_release_le (h : e.stage = .release) : e.render.value.toNat ≤ e.value.toNat := by
  rw [Envelope.render_of_release h, Envelope.moveTo_value_toNat (Nat.zero_le fullScale), toward_of_ge (Nat.zero_le _)]
  omega

theorem Envelope.sus_le_fullScale (e : Envelope) : e.sus.toNat ≤ fullScale := Nat.le_of_lt_succ e.sus.isLt

theorem Envelope.render_decay_value (h : e.stage = .decay) :
    e.render.value.toNat = toward e.value.toNat e.sus.toNat e.incD := by
  rw [Envelope.render_of_decay h, Envelope.moveTo_value_toNat (Envelope.sus_le_fullScale e)]

theorem Envelope.render_decay_stage (h : e.stage = .decay) :
    e.render.stage = if e.render.value = e.sus then .sustain else .decay := by
  simp only [← BitVec.toNat_inj]
  rw [Envelope.render_of_decay h, Envelope.moveTo_stage (Envelope.sus_le_fullScale e), h]

/-- Settles O41: the counts are those of `Envelope.renders_until_target` for the targets 16383 and 0, the bounds those of
`toward`. -/
theorem envelopeStagesEndOnTime : Obligations.EnvelopeStagesEndOnTime := by
  refine ⟨fun e h hinc => ?_, fun e h hinc => ?_,
    fun e => ⟨Envelope.render_attack_ge, Envelope.render_release_le, fun h => ?_, ?_, ?_⟩⟩
  · rw [← movesFor_attack]
    exact Envelope.attack_ends h hinc
  · exact Envelope.release_ends h hinc
  · rw [Envelope.render_decay_value h]
    refine ⟨Envelope.render_decay_stage h, fun hge => toward_of_ge hge e.incD, fun hle => toward_bounds_of_le hle e.incD,
      fun hge => ?_⟩
    rw [toward_of_ge hge]
    omega
  · exact Envelope.render_of_rest
  · exact Envelope.render_eq e

/-! ## ALL_NOTES_OFF (R432) -/

variable {s : State}

theorem onChannel_of_accept {ch : BitVec 4} (h : accept s ch = true) (f : State → State) : onChannel ch f s = f s := if_pos h

theorem exec_allNotesOff_of_accept {ch : BitVec 4} (h : accept s ch = true) :
    exec (.allNotesOff ch) s = .next (allNotesOffBody s) := congrArg _ (onChannel_of_accept h _)

/-- A release puts a living envelope into RELEASE and leaves a dead one (R205). -/
theorem Envelope.trigger_release (e : Envelope) :
    e.trigger .release = { e with stage := if e.stage = .dead then .dead else .release } := by
  by_cases h : e.stage = .dead
  · rw [Envelope.trigger_release_of_dead h, if_pos h, ← h]
  · rw [if_neg h]
    exact if_neg fun hand => h hand.1

theorem Envelope.trigger_release_idem (e : Envelope) : (e.trigger .release).trigger .release = e.trigger .release := by
  by_cases h : e.stage = .dead
  · rw [Envelope.trigger_release_of_dead h, Envelope.trigger_release_of_dead h]
  · simp [Envelope.trigger_release, h]

theorem allNotesOffBody_idem (s : State) : allNotesOffBody (allNotesOffBody s) = allNotesOffBody s := by
  have hvoice : s.voice.release.release = s.voice.release := by simp only [Voice.release, Envelope.trigger_release_idem]
  exact congrArg (fun v => (s.setCtl { s.ctl with held := [] }).setVoice v) hvoice

/-- Settles O27: the body is a release with the held notes emptied, and a release of a released envelope changes nothing. -/
theorem allNotesOffReleasesTheVoice : Obligations.AllNotesOffReleasesTheVoice := by
  intro s ch haccept
  refine ⟨allNotesOffBody s, exec_allNotesOff_of_accept haccept, rfl, fun e => ?_, ?_⟩
  · cases e with
    | env1 => exact Envelope.trigger_release s.voice.env1
    | env2 => exact Envelope.trigger_release s.voice.env2
  · rw [exec_allNotesOff_of_accept (s := allNotesOffBody s) haccept, allNotesOffBody_idem]

/-! ## A control tick that plays no note (R314, R316, R378) -/

theorem arpNoteDue_of_no_held (h : s.ctl.held = []) : arpNoteDue s = false := by simp [arpNoteDue, h]

theorem controllerTick_voice_of_no_note (h : arpNoteDue s = false) : (controllerTick s).voice = s.voice := by
  have hctl : (ctlControl s).1.voice = s.voice := (ctlControl_of_no_note h).1
  simp only [controllerTick]
  split
  · simp [hctl]
  · exact hctl

theorem voiceControl_renders (s : State) :
    (voiceControl s).voice.env1 = s.voice.env1.render ∧ (voiceControl s).voice.env2 = s.voice.env2.render ∧
      (voiceControl s).voice.dead = s.voice.renderEnvelopes.dead := by
  rw [voiceControl_eq, glide_eq]
  exact ⟨rfl, rfl, rfl⟩

/-- The LFOs advance before the controller's tick and leave what it reads. -/
theorem arpNoteDue_advanceLfos (s : State) : arpNoteDue (advanceLfos s) = arpNoteDue s := rfl

theorem controlCore_renders (h : arpNoteDue s = false) :
    (controlCore s).voice.env1 = s.voice.env1.render ∧ (controlCore s).voice.env2 = s.voice.env2.render ∧
      (controlCore s).voice.dead = s.voice.renderEnvelopes.dead := by
  have htick := controllerTick_voice_of_no_note ((arpNoteDue_advanceLfos s).trans h)
  have hvoice : (refreshSources (drawRandom (controllerTick (advanceLfos s)))).voice = s.voice := by simp [htick]
  have := voiceControl_renders (refreshSources (drawRandom (controllerTick (advanceLfos s))))
  rwa [hvoice] at this

theorem ctlControl_running (s : State) : (ctlControl s).1.ctl.running = wantRunning s := by
  simp only [ctlControl]
  split <;> simp [settled_running]

theorem wantRunning_of_no_held (hclock : extClock s = false) (h : s.ctl.held = []) : wantRunning s = false := by
  simp [wantRunning, hclock, h]

theorem controlCore_running (s : State) : (controlCore s).ctl.running = wantRunning s := by
  have htick : (controllerTick (advanceLfos s)).ctl.running = wantRunning (advanceLfos s) := by
    simp only [controllerTick]
    split
    · simp [ctlControl_running]
    · exact ctlControl_running _
  exact htick

/-! ## ALL_SOUND_OFF (R431) -/

/-- A dead voice gives silence and stays as it is (R340). -/
theorem audioStep_of_dead (h : s.voice.dead = true) : audioStep s = (noiseUpdate s, 128) := by
  have : (noiseUpdate s).voice.dead = true := by simp [h]
  exact if_pos this

theorem Voice.renderEnvelopes_dead {v : Voice} (h1 : v.env1.stage = .dead) (h2 : v.env2.stage = .dead)
    (hr : v.retriggered = false) : v.renderEnvelopes.dead = true := by
  simp [Voice.renderEnvelopes, deadNow, Envelope.isDead, Envelope.render_of_rest (.inr h1),
    Envelope.render_of_rest (.inr h2), h1, h2, hr]

/-- The amplifier follows the second envelope, so its zero is silence at every VCA gain (R333). -/
theorem outAmplitude_of_zero (h : s.voice.env2.value = 0) : outAmplitude s = 0 := by
  simp [outAmplitude, Envelope.env8, h, top8]

theorem exec_allSoundOff_of_accept {ch : BitVec 4} (h : accept s ch = true) :
    exec (.allSoundOff ch) s = .next (allSoundOffBody s) := congrArg _ (onChannel_of_accept h _)

theorem execControl_eq (s : State) : exec .control s = .next (runSubSteps cvWrites (controlCore s)) := rfl

/-- Settles O26: the body is the state written out, and a dead voice with no held note renders, plays and runs nothing. -/
theorem allSoundOffSilencesTheVoice : Obligations.AllSoundOffSilencesTheVoice := by
  intro s ch haccept t
  have hrest : t.voice.env2.render = t.voice.env2 := Envelope.render_of_rest (.inr rfl)
  obtain ⟨-, henv2, hdead⟩ := controlCore_renders (s := t) (arpNoteDue_of_no_held rfl)
  refine ⟨exec_allSoundOff_of_accept haccept, ⟨_, execAudio_eq t, ?_, ?_⟩, _, execControl_eq t, ?_, ?_,
    fun hclock => ?_⟩
  · exact congrArg Prod.snd (audioStep_of_dead (s := t) rfl)
  · change (audioStep t).1.voice = t.voice
    rw [audioStep_of_dead rfl]
    simp
  · rw [(cvWrites_out _).2.2]
    exact outAmplitude_of_zero (congrArg Envelope.value (henv2.trans hrest))
  · rw [cvWrites_eq]
    exact hdead.trans (Voice.renderEnvelopes_dead rfl rfl rfl)
  · rw [cvWrites_eq]
    exact (controlCore_running t).trans (wantRunning_of_no_held hclock rfl)

end Sys2Proof.Machine
end

section
/-! The LFOs (41_lfo.md R230 to R246): the increment of a rate in numbers, the advance with its sample-and-hold draw, the render
of every waveform id, and the drift correction of the step-synced LFOs with the control ticks that run it. -/

namespace Sys2Proof.Machine

variable {s t : State} {c : Config} {l : Lfo}

/-! ## The increment of a rate (R236, R237, R392) -/

theorem isSynced_iff (s : State) (i : LfoId) : isSynced s i = true ↔ lfoRateOf s i < 16 := decide_eq_true_iff

theorem lfoIncrement_of_synced {i : LfoId} (h : isSynced s i = true) :
    lfoIncrement s i = syncIncrement (lfoRateOf s i) (tps s) := if_pos h

theorem lfoIncrement_of_free {i : LfoId} (h : ¬ isSynced s i = true) :
    lfoIncrement s i = lfoRate s.cfg (lfoRateOf s i) := if_neg h

theorem syncIncrement_toNat (r ticks : Nat) :
    (syncIncrement r ticks).toNat = max 1 (min 65535 (65536 / ((r + 1) * ticks))) := by
  unfold syncIncrement syncMult clip
  generalize 65536 / ((r + 1) * ticks) = q
  rw [BitVec.toNat_ofInt]
  omega

/-- The tempo byte 0 is the external clock (R55). -/
theorem tps_eq (s : State) :
    tps s = if (readPatch s (offSeq s.cfg)).toNat = 0 then max 1 s.ctl.extTps.toNat
      else ticksPerStep s.cfg (readPatch s (offSeq s.cfg)).toNat := by
  simp only [tps, extClock, seqTempo, beq_iff_eq]

/-- Settles O21: a rate of 16 and up reads the table, a lower one divides by the ticks per step. -/
theorem lfoIncrementFollowsTheRate : Obligations.LfoIncrementFollowsTheRate := by
  intro s i
  refine ⟨fun hfree => lfoIncrement_of_free ?_, fun hsynced => ?_⟩
  · exact mt (isSynced_iff s i).mp (Nat.not_lt.mpr hfree)
  · rw [lfoIncrement_of_synced ((isSynced_iff s i).mpr hsynced), syncIncrement_toNat, tps_eq]
    rfl

/-! ## The advance (R232) -/

/-- A wrap of a sample-and-hold LFO draws its new value. -/
theorem Lfo.advance_of_draw (h : 65536 ≤ l.phase.toNat + l.inc.toNat ∧ l.wave = 3) (r : Half) :
    l.advance r = ({ l with phase := l.phase + l.inc, sh := rngOut (rngStep r) }, rngStep r) := if_pos h

theorem Lfo.advance_of_no_draw (h : ¬ (65536 ≤ l.phase.toNat + l.inc.toNat ∧ l.wave = 3)) (r : Half) :
    l.advance r = ({ l with phase := l.phase + l.inc }, r) := if_neg h

/-- Whether it draws or not, an advance adds the increment to the phase and keeps the increment and the waveform. -/
theorem Lfo.advance_registers (l : Lfo) (r : Half) :
    (l.advance r).1.phase = l.phase + l.inc ∧ (l.advance r).1.inc = l.inc ∧ (l.advance r).1.wave = l.wave := by
  by_cases h : 65536 ≤ l.phase.toNat + l.inc.toNat ∧ l.wave = 3
  · rw [advance_of_draw h]
    exact ⟨rfl, rfl, rfl⟩
  · rw [advance_of_no_draw h]
    exact ⟨rfl, rfl, rfl⟩

theorem rngOut_toNat (r : Half) : (rngOut r).toNat = r.toNat % 256 := by
  simp [rngOut, BitVec.extractLsb'_toNat]

/-! ## The waveforms (R245) -/

theorem Lfo.render_of_numLfoWaves_le (h : c.numLfoWaves ≤ l.wave.toNat) : l.render c = 128 := if_pos h

/-- The triangle is the oscillators' triangle (R280) of the same phase. -/
theorem Lfo.render_triangle (hw : l.wave = 0) (h : 0 < c.numLfoWaves) {c' : Config} (h' : 3 < c'.numOscAlgs) (aux : Byte) :
    l.render c = Machine.wave c' 3 l.phase aux := by
  rw [wave_triangle h']
  unfold Lfo.render
  rw [hw]
  exact if_neg (Nat.not_le.mpr h)

theorem Lfo.render_ramp (hw : l.wave = 1) (h : 1 < c.numLfoWaves) : l.render c = l.phase.extractLsb' 8 8 := by
  unfold Lfo.render
  rw [hw]
  exact if_neg (Nat.not_le.mpr h)

theorem Lfo.render_square (hw : l.wave = 2) (h : 2 < c.numLfoWaves) :
    l.render c = if l.phase.toNat < 32768 then 255 else 0 := by
  have hbit : l.render c = if l.phase.getLsbD 15 then 0 else 255 := by
    unfold Lfo.render
    rw [hw]
    exact if_neg (Nat.not_le.mpr h)
  simp only [hbit, getLsbD_15_iff, ← Nat.not_lt, ite_not]

theorem Lfo.render_sampleAndHold (hw : l.wave = 3) (h : 3 < c.numLfoWaves) : l.render c = l.sh := by
  unfold Lfo.render
  rw [hw]
  exact if_neg (Nat.not_le.mpr h)

theorem Lfo.render_further (h3 : 3 < l.wave.toNat) (h : l.wave.toNat < c.numLfoWaves) :
    l.render c = Config.lfoWaveExt l.wave l.phase := by
  unfold Lfo.render
  rw [if_neg (Nat.not_le.mpr h)]
  split
  case h_5 => rfl
  all_goals omega

/-- Settles O47: the advance by whether it draws, and the rows of `render` under its bound. -/
theorem lfoAdvancesAndRenders : Obligations.LfoAdvancesAndRenders := by
  intro c l r
  obtain ⟨hphase, hinc, hwave⟩ := l.advance_registers r
  refine ⟨?_, hinc, hwave, fun hdraw => ?_, fun hkeep => ?_, Lfo.render_of_numLfoWaves_le, fun hw h => ?_, fun hw h => ?_,
    Lfo.render_square, Lfo.render_sampleAndHold, Lfo.render_further⟩
  · rw [hphase]
    exact BitVec.toNat_add ..
  · rw [Lfo.advance_of_draw hdraw]
    exact ⟨rfl, rngOut_toNat _⟩
  · rw [Lfo.advance_of_no_draw hkeep]
    exact ⟨rfl, rfl⟩
  · have halgs : 3 < ({ c with numOscAlgs := 4 } : Config).numOscAlgs := by simp
    rw [Lfo.render_triangle hw h halgs 0, wave_triangle_toNat halgs]
  · rw [Lfo.render_ramp hw h, highByte_toNat]

/-! ## The drift step (R240, R241) -/

theorem driftFactor_eq (s : State) (i : LfoId) : driftFactor s i = if lfoRateOf s i < 16 then lfoRateOf s i + 1 else 1 := by
  simp only [driftFactor, isSynced_iff, syncMult]

/-- The drift period fits the counter with room to spare. -/
theorem driftPeriod_le (s : State) : driftPeriod s ≤ 16 * 16 := by
  have hfactor : ∀ i, driftFactor s i ≤ 16 := fun i => by
    rw [driftFactor_eq]
    split <;> omega
  exact Nat.mul_le_mul (hfactor .lfo1) (hfactor .lfo2)

theorem driftResetLfo_of_synced {i : LfoId} (h : isSynced s i = true) :
    driftResetLfo s i = { s.lfo i with phase := 0, inc := lfoIncrement s i } := by
  rw [lfoIncrement_of_synced h]
  exact if_pos h

theorem driftResetLfo_of_free {i : LfoId} (h : ¬ isSynced s i = true) : driftResetLfo s i = s.lfo i := if_neg h

theorem driftStep_of_free (h1 : ¬ isSynced s .lfo1 = true) (h2 : ¬ isSynced s .lfo2 = true) :
    driftStep s = s.setEng { s.eng with lfoSyncSteps := 0 } := if_pos (by simp [h1, h2])

section
variable (h : isSynced s .lfo1 = true ∨ isSynced s .lfo2 = true)
include h

/-- Some LFO is step-synced, and its drift period is not over. -/
theorem driftStep_of_lt (hlt : s.eng.lfoSyncSteps.toNat + 1 < driftPeriod s) :
    driftStep s = s.setEng { s.eng with lfoSyncSteps := s.eng.lfoSyncSteps + 1 } := by
  unfold driftStep
  rw [if_neg (by obtain h | h := h <;> simp [h]), if_neg (Nat.not_le.mpr hlt)]

theorem driftStep_of_le (hle : driftPeriod s ≤ s.eng.lfoSyncSteps.toNat + 1) :
    driftStep s = { s with
      lfo1 := driftResetLfo s .lfo1
      lfo2 := driftResetLfo s .lfo2
      eng := { s.eng with lfoSyncSteps := 0 } } := by
  unfold driftStep
  rw [if_neg (by obtain h | h := h <;> simp [h]), if_pos hle]

end

/-! ## The control ticks that run it (R450) -/

section
variable (hc : t.cfg = s.cfg) (hp : t.patch = s.patch)
include hc hp

theorem lfoRateOf_eq_of_patch : lfoRateOf t = lfoRateOf s := by
  funext i
  exact congrArg BitVec.toNat (readPatch_congr hc hp _)

theorem isSynced_eq_of_patch : isSynced t = isSynced s := by
  funext i
  simp only [isSynced, lfoRateOf_eq_of_patch hc hp]

theorem driftPeriod_eq_of_patch : driftPeriod t = driftPeriod s := by
  simp only [driftPeriod, driftFactor, isSynced_eq_of_patch hc hp, lfoRateOf_eq_of_patch hc hp]

theorem driftResetLfo_congr (hk : t.ctl = s.ctl) {i : LfoId} (hl : t.lfo i = s.lfo i) :
    driftResetLfo t i = driftResetLfo s i := by
  have hsync := isSynced_eq_of_patch hc hp
  by_cases h : isSynced s i = true
  · rw [driftResetLfo_of_synced h, driftResetLfo_of_synced (by rwa [hsync]), hl, lfoIncrement_eq_of_patch hc hp hk]
  · rw [driftResetLfo_of_free h, driftResetLfo_of_free (by rwa [hsync]), hl]

/-- What the drift step writes depends on the patch, the controller, the LFOs and its counter only. -/
theorem driftStep_congr (hk : t.ctl = s.ctl) (h1 : t.lfo1 = s.lfo1) (h2 : t.lfo2 = s.lfo2)
    (hn : t.eng.lfoSyncSteps = s.eng.lfoSyncSteps) :
    (driftStep t).lfo1 = (driftStep s).lfo1 ∧ (driftStep t).lfo2 = (driftStep s).lfo2 ∧
      (driftStep t).eng.lfoSyncSteps = (driftStep s).eng.lfoSyncSteps := by
  unfold driftStep
  rw [isSynced_eq_of_patch hc hp, driftPeriod_eq_of_patch hc hp, hn]
  split
  · exact ⟨h1, h2, rfl⟩
  split
  · exact ⟨driftResetLfo_congr hc hp hk h1, driftResetLfo_congr hc hp hk h2, rfl⟩
  · exact ⟨h1, h2, rfl⟩

end

theorem controllerTick_of_no_boundary (h : stepBoundary s = false) : controllerTick s = (ctlControl s).1 := by
  simp only [controllerTick, ctlControl_snd, h, Bool.false_eq_true, if_false]

theorem controllerTick_of_boundary (h : stepBoundary s = true) : controllerTick s = driftStep (ctlControl s).1 := by
  simp only [controllerTick, ctlControl_snd, h, if_true]

theorem controllerTick_ctl (s : State) : (controllerTick s).ctl = (ctlControl s).1.ctl := by
  cases h : stepBoundary s with
  | false => rw [controllerTick_of_no_boundary h]
  | true =>
    rw [controllerTick_of_boundary h]
    simp

/-- CONTROL writes the LFOs, the drift counter and the controller before its draws and its voice. -/
theorem control_registers (s : State) :
    let t := runSubSteps cvWrites (controlCore s)
    let u := controllerTick (advanceLfos s)
    t.lfo1 = u.lfo1 ∧ t.lfo2 = u.lfo2 ∧ t.eng.lfoSyncSteps = u.eng.lfoSyncSteps ∧ t.ctl = u.ctl := by
  intro t u
  rw [show t = _ from cvWrites_eq _]
  simp [controlCore, u]

/-- The boundary is read before the LFOs advance, which leave what it reads. -/
theorem stepBoundary_advanceLfos (s : State) : stepBoundary (advanceLfos s) = stepBoundary s := rfl

/-- A control tick runs the drift step on the advanced LFOs exactly on a step boundary, with the controller's registers as the
boundary leaves them (R241, R450). -/
theorem control_drift (s : State) :
    let t := runSubSteps cvWrites (controlCore s)
    let d := driftStep { s with lfo1 := (advanceLfos s).lfo1, lfo2 := (advanceLfos s).lfo2, ctl := t.ctl }
    (stepBoundary s = false → t.lfo1 = (advanceLfos s).lfo1 ∧ t.lfo2 = (advanceLfos s).lfo2 ∧
      t.eng.lfoSyncSteps = s.eng.lfoSyncSteps) ∧
    (stepBoundary s = true → t.lfo1 = d.lfo1 ∧ t.lfo2 = d.lfo2 ∧ t.eng.lfoSyncSteps = d.eng.lfoSyncSteps) := by
  intro t d
  obtain ⟨h1, h2, hn, hctl⟩ := control_registers s
  rw [← stepBoundary_advanceLfos, h1, h2, hn]
  refine ⟨fun hb => ?_, fun hb => ?_⟩
  · rw [controllerTick_of_no_boundary hb]
    simp
  · rw [controllerTick_of_boundary hb]
    have hk : (ctlControl (advanceLfos s)).1.ctl = t.ctl := (controllerTick_ctl _).symm.trans hctl.symm
    exact driftStep_congr (by simp) (by simp) hk (by simp) (by simp) (by simp)

/-- Settles O46: the drift step falls on the boundaries, and its three cases are told apart by the synced LFOs and their
period. -/
theorem driftCorrectionResetsSyncedLfos : Obligations.DriftCorrectionResetsSyncedLfos := by
  refine ⟨fun s => ⟨_, execControl_eq s, control_drift s⟩, fun s => ?_⟩
  intro synced mult n t
  have hsync : ∀ i, isSynced s i = true ↔ synced i := isSynced_iff s
  have hn : driftPeriod s = n := congrArg₂ (· * ·) (driftFactor_eq s .lfo1) (driftFactor_eq s .lfo2)
  have hsome (h : synced .lfo1 ∨ synced .lfo2) : isSynced s .lfo1 = true ∨ isSynced s .lfo2 = true :=
    h.imp (hsync _).mpr (hsync _).mpr
  refine ⟨fun ⟨h1, h2⟩ => ?_, fun hs hlt => ?_, fun hs hle => ?_⟩
  · exact driftStep_of_free (mt (hsync _).mp h1) (mt (hsync _).mp h2)
  · have ht : t = _ := driftStep_of_lt (hsome hs) (hn ▸ hlt)
    have hfit : s.eng.lfoSyncSteps.toNat + 1 < 2 ^ 16 := by have := driftPeriod_le s; omega
    rw [ht]
    exact ⟨rfl, BitVec.toNat_add_of_lt hfit⟩
  · have ht : t = _ := driftStep_of_le (hsome hs) (hn ▸ hle)
    have hlfo (i : LfoId) : t.lfo i = driftResetLfo s i := by
      rw [ht]
      cases i <;> rfl
    refine ⟨by rw [ht], fun i => ?_⟩
    rw [hlfo]
    exact ⟨fun h => driftResetLfo_of_synced ((hsync i).mpr h), fun h => driftResetLfo_of_free (mt (hsync i).mp h)⟩

end Sys2Proof.Machine
end

section
/-! The oscillators, the noise source and the random generator (42_oscillator.md R276, R277, R288 to R290, R300, R301): the
octave law of the pitch increment, a draw in numbers, and what one audio tick does to the voice and to the engine. -/

namespace Sys2Proof.Machine

variable {s : State} {c : Config} {p : Int}

/-! ## The increment of a pitch (R276, R277) -/

theorem octaveFolds_of_tableBase_le (h : (c.tableBase : Int) ≤ p) : octaveFolds c p = 0 := if_pos h

theorem octaveFolds_of_lt (h : p < c.tableBase) : octaveFolds c p = ((c.tableBase - p + 1535) / 1536).toNat :=
  if_neg (Int.not_le.mpr h)

/-- Below the table a pitch takes one fold more than the pitch an octave above it. -/
theorem octaveFolds_eq_succ (h : p < c.tableBase) : octaveFolds c p = octaveFolds c (p + 1536) + 1 := by
  rw [octaveFolds_of_lt h]
  rcases Int.lt_or_le (p + 1536) c.tableBase with habove | habove
  · rw [octaveFolds_of_lt habove]
    omega
  · rw [octaveFolds_of_tableBase_le habove]
    omega

/-- The folds end inside the table. -/
theorem octaveFolds_offset (h : p ≤ (c.tableBase : Int) + 1535) :
    ∃ o : Nat, p + 1536 * octaveFolds c p = c.tableBase + o ∧ o < 1536 := by
  have hbounds : (c.tableBase : Int) ≤ p + 1536 * octaveFolds c p ∧ p + 1536 * octaveFolds c p < c.tableBase + 1536 := by
    rcases Int.lt_or_le p c.tableBase with hlow | htable
    · rw [octaveFolds_of_lt hlow]
      omega
    · rw [octaveFolds_of_tableBase_le htable]
      omega
  exact ⟨(p + 1536 * octaveFolds c p - c.tableBase).toNat, by omega, by omega⟩

theorem pitchIncrement_eq_of_offset {o : Nat} (h : p + 1536 * octaveFolds c p = c.tableBase + o) :
    pitchIncrement c p = pitchTable c o >>> octaveFolds c p := by
  simp only [pitchIncrement, h, add_sub_cancel_left, Int.toNat_natCast]

theorem pitchIncrement_of_tableBase_le (h : (c.tableBase : Int) ≤ p) :
    pitchIncrement c p = pitchTable c (p - c.tableBase).toNat := by
  have hfolds := octaveFolds_of_tableBase_le h
  rw [pitchIncrement_eq_of_offset (o := (p - c.tableBase).toNat) (by omega), hfolds, BitVec.ushiftRight_zero]

/-- The octave law: the pitch and the one an octave above it fold to the same entry. -/
theorem pitchIncrement_of_lt_tableBase (h : p < c.tableBase) : pitchIncrement c p = pitchIncrement c (p + 1536) >>> 1 := by
  have hentry : p + 1536 * (octaveFolds c (p + 1536) + 1 : Nat) = p + 1536 + 1536 * octaveFolds c (p + 1536) := by omega
  simp only [pitchIncrement, octaveFolds_eq_succ h, hentry, BitVec.shiftRight_add]

/-- Settles O39: the folds' count and offset, and the octave law, whose upper pitch may stand in the table. -/
theorem pitchIncrementFoldsByOctaves : Obligations.PitchIncrementFoldsByOctaves := by
  intro c p _ hp
  obtain ⟨o, hfold, ho⟩ := octaveFolds_offset hp
  refine ⟨⟨_, o, hfold, ho, pitchIncrement_eq_of_offset hfold⟩,
    fun habove => pitchIncrement_of_lt_tableBase (by omega), fun hlow htable => ?_⟩
  rw [pitchIncrement_of_lt_tableBase hlow, pitchIncrement_of_tableBase_le htable]

/-! ## The random generator (R300) -/

theorem getLsbD_0_iff (r : Half) : r.getLsbD 0 = true ↔ r.toNat % 2 = 1 := by
  simp [BitVec.getLsbD, Nat.testBit_zero]

theorem rngStep_of_even {r : Half} (h : r.toNat % 2 = 0) : rngStep r = r >>> 1 :=
  if_neg (mt (getLsbD_0_iff r).mp (by omega))

theorem rngStep_of_odd {r : Half} (h : r.toNat % 2 = 1) : rngStep r = (r >>> 1) ^^^ 0xB400 :=
  if_pos ((getLsbD_0_iff r).mpr h)

theorem shiftRight_one_toNat (r : Half) : (r >>> 1).toNat = r.toNat / 2 := by
  rw [BitVec.toNat_ushiftRight, Nat.shiftRight_one]

/-- Settles O48: a draw by the parity of the state, and the two draws of the example. -/
theorem randomDrawShiftsAndTaps : Obligations.RandomDrawShiftsAndTaps := by
  refine fun r => ⟨fun heven => ?_, fun hodd => ?_, rngOut_toNat _, rngStep_ne_zero, by decide, by decide⟩
  · rw [rngStep_of_even heven, shiftRight_one_toNat]
  · rw [rngStep_of_odd hodd, BitVec.toNat_xor, shiftRight_one_toNat]
    rfl

/-! ## The noise source (R301) -/

/-- The tick that reaches NOISE_DECIM draws a new noise sample. -/
theorem noiseUpdate_of_le (h : s.cfg.noiseDecim ≤ s.eng.noiseCtr + 1) :
    noiseUpdate s = s.setEng { s.eng with
      noiseCtr := 0, rng := rngStep s.eng.rng, noise := rngOut (rngStep s.eng.rng) } := if_pos h

theorem noiseUpdate_of_lt (h : s.eng.noiseCtr + 1 < s.cfg.noiseDecim) :
    noiseUpdate s = s.setEng { s.eng with noiseCtr := s.eng.noiseCtr + 1 } := if_neg (Nat.not_le.mpr h)

theorem noiseUpdate_eq (s : State) :
    noiseUpdate s = s.setEng { s.eng with
      noiseCtr := (noiseUpdate s).eng.noiseCtr
      rng := (noiseUpdate s).eng.rng
      noise := (noiseUpdate s).eng.noise } := by
  rcases Nat.lt_or_ge (s.eng.noiseCtr + 1) s.cfg.noiseDecim with h | h
  · rw [noiseUpdate_of_lt h]
    rfl
  · rw [noiseUpdate_of_le h]
    rfl

/-! ## The audio tick (R340, R460) -/

theorem voiceAudio_of_live (h : s.voice.dead = false) :
    voiceAudio s = (s.setVoice (s.voice.advanceOscs.hardSync (combineOption s)), voiceSample s) :=
  if_neg (by rw [h]; decide)

theorem voiceAudio_of_dead (h : s.voice.dead = true) : voiceAudio s = (s, 128) := if_pos h

/-- The voice's part of an audio tick writes the voice alone. -/
theorem voiceAudio_eq (s : State) : (voiceAudio s).1 = s.setVoice (voiceAudio s).1.voice := by
  cases h : s.voice.dead with
  | false => rw [voiceAudio_of_live h]; rfl
  | true => rw [voiceAudio_of_dead h]; rfl

theorem audioStep_eq (s : State) : (audioStep s).1 = (noiseUpdate s).setVoice (audioStep s).1.voice := voiceAudio_eq _

theorem audioStep_eng (s : State) : (audioStep s).1.eng = (noiseUpdate s).eng := by rw [audioStep_eq]; rfl

/-- Settles O51: the noise update decides the counter, the generator and the sample; the voice's part keeps them. -/
theorem audioTicksTheNoise : Obligations.AudioTicksTheNoise := by
  refine fun s => ⟨_, execAudio_eq s, fun hle => ?_, fun hlt => ?_, fun hdead => ?_, ?_⟩
  · simp only [State.respond, setEng_eng, audioStep_eng, noiseUpdate_of_le hle, rngOut_toNat, and_self]
  · simp only [State.respond, setEng_eng, audioStep_eng, noiseUpdate_of_lt hlt, and_self]
  · rw [audioStep_of_dead hdead]
    simp [State.respond]
  · rw [audioStep_eq, noiseUpdate_eq]
    rfl

/-! ## The oscillators of a live voice (R288 to R290, R344) -/

theorem combineOption_eq_sync_iff (s : State) : combineOption s = .sync ↔ (readPatch s 3).toNat = 1 := by
  unfold combineOption
  split
  · next h => exact iff_of_true rfl h
  · next h => exact iff_of_false nofun (by rw [h]; decide)
  · next h => exact iff_of_false nofun (by rw [h]; decide)
  · next h _ _ => exact iff_of_false nofun h

theorem combineOption_noiseUpdate (s : State) : combineOption (noiseUpdate s) = combineOption s := by
  simp only [combineOption, readPatch_congr (s := s) (t := noiseUpdate s) (by simp) (by simp)]

theorem wrapDetected_iff (prevHigh high : Byte) : wrapDetected prevHigh high = true ↔ high.toNat < prevHigh.toNat :=
  decide_eq_true_iff

/-- Hard sync writes the secondary's phase alone (R290). -/
theorem Voice.hardSync_eq (v : Voice) (opt : Combine) :
    v.hardSync opt = { v with
      osc2 := { v.osc2 with phase := if opt = .sync ∧ v.wrapped = true then 0 else v.osc2.phase } } := by
  unfold Voice.hardSync
  split <;> rfl

theorem audioStep_voice_of_live (h : s.voice.dead = false) :
    (audioStep s).1.voice = s.voice.advanceOscs.hardSync (combineOption s) := by
  rw [audioStep, voiceAudio_of_live (by simpa using h), combineOption_noiseUpdate]
  simp

/-- Settles O53: the advance of the three oscillators, then the hard sync. -/
theorem liveVoiceAdvancesItsOscillators : Obligations.LiveVoiceAdvancesItsOscillators := by
  intro s hlive
  refine ⟨_, execAudio_eq s, ?_⟩
  have hvoice : ((audioStep s).1.respond (audioStep s).2).voice = s.voice.advanceOscs.hardSync (combineOption s) :=
    audioStep_voice_of_live hlive
  rw [hvoice, Voice.hardSync_eq]
  refine ⟨BitVec.toNat_add .., highByte_toNat _, wrapDetected_iff .., ?_, BitVec.toNat_add .., rfl⟩
  simp only [combineOption_eq_sync_iff]
  split
  · rfl
  · exact BitVec.toNat_add ..

end Sys2Proof.Machine
end

section
/-! The mixing of samples (43_voice.md R340 to R345): the 8-bit forms as integers in range, and the sample of a live
voice. -/

namespace Sys2Proof.Machine

variable {s : State} {a b t : Int}

/-! ## Cross-fade and ring modulation (R341, R342) -/

theorem xfade_eq (a b t : Int) : xfade a b t = a + (b - a) * t / 256 := rfl

/-- A cross-fade at a depth of a byte does not leave the interval of its two samples. -/
theorem xfade_bounds (h0 : 0 ≤ t) (h1 : t ≤ 255) : min a b ≤ xfade a b t ∧ xfade a b t ≤ max a b := by
  rw [xfade_eq]
  rcases le_total a b with hab | hab
  · have hlow : 0 ≤ (b - a) * t := mul_nonneg (by omega) h0
    have hhigh : (b - a) * t ≤ (b - a) * 255 := mul_le_mul_of_nonneg_left h1 (by omega)
    omega
  · have hhigh : (b - a) * t ≤ 0 := mul_nonpos_of_nonpos_of_nonneg (by omega) h0
    have hlow : (b - a) * 255 ≤ (b - a) * t := mul_le_mul_of_nonpos_left h1 (by omega)
    omega

theorem xfade_depth_zero (a b : Int) : xfade a b 0 = a := by simp [xfade_eq]

/-- At full depth the quotient's floor gives the second sample, or one less while the fade rises. -/
theorem xfade_depth_full (ha : 0 ≤ a) (ha' : a ≤ 255) (hb : 0 ≤ b) (hb' : b ≤ 255) :
    xfade a b 255 = b ∨ xfade a b 255 = b - 1 := by
  rw [xfade_eq]
  omega

theorem clip_byte_eq (v : Int) : clip v 0 255 = max 0 (min 255 v) := by
  unfold clip
  omega

theorem ringMod_eq (a b : Int) : ringMod a b = max 0 (min 255 ((a - 128) * (b - 128) / 128 + 128)) := clip_byte_eq _

theorem ringMod_bounds (a b : Int) : 0 ≤ ringMod a b ∧ ringMod a b ≤ 255 := by
  rw [ringMod_eq]
  omega

theorem ringMod_zero_left (b : Int) : ringMod 128 b = 128 := by norm_num [ringMod_eq]

theorem ringMod_zero_right (a : Int) : ringMod a 128 = 128 := by norm_num [ringMod_eq]

/-- Settles O50: a cross-fade stays between its samples, and a ring modulation is clipped; 128 is its zero. -/
theorem mixingStaysInRange : Obligations.MixingStaysInRange := by
  intro a b t ha ha' hb hb' h0 h1
  obtain ⟨hlow, hhigh⟩ := xfade_bounds (a := a) (b := b) h0 h1
  obtain ⟨hring, hring'⟩ := ringMod_bounds a b
  exact ⟨hlow, hhigh, xfade_depth_zero a b, xfade_depth_full ha ha' hb hb', hring, hring', ringMod_zero_left b,
    ringMod_zero_right a⟩

/-! ## The forms on bytes (R340 to R343) -/

theorem byte_ofInt_toNat (h0 : 0 ≤ a) (h1 : a ≤ 255) : ((BitVec.ofInt 8 a).toNat : Int) = a := by
  rw [BitVec.toNat_ofInt]
  omega

theorem byte_ofInt_clip_toNat (v : Int) : ((BitVec.ofInt 8 (clip v 0 255)).toNat : Int) = max 0 (min 255 v) := by
  rw [clip_byte_eq]
  exact byte_ofInt_toNat (by omega) (by omega)

theorem xfadeByte_toNat (x y d : Byte) :
    ((xfadeByte x y d).toNat : Int) = x.toNat + ((y.toNat : Int) - x.toNat) * d.toNat / 256 := by
  have hx := x.isLt
  have hy := y.isLt
  have hd := d.isLt
  obtain ⟨hlow, hhigh⟩ := xfade_bounds (a := x.toNat) (b := y.toNat) (t := d.toNat) (by omega) (by omega)
  exact byte_ofInt_toNat (by omega) (by omega)

theorem ringByte_toNat (x y : Byte) :
    ((ringByte x y).toNat : Int) = max 0 (min 255 (((x.toNat : Int) - 128) * ((y.toNat : Int) - 128) / 128 + 128)) :=
  byte_ofInt_clip_toNat _

theorem xorByte_toNat (x y d : Byte) : (xorByte x y d).toNat = x.toNat ^^^ (y.toNat + d.toNat) % 256 := by
  rw [xorByte, BitVec.toNat_xor, BitVec.toNat_add]

/-- The combination by the option byte: 2 is RING, 3 is XOR, and every other value cross-fades (R340). -/
theorem combine_toNat (s : State) (x y bal : Byte) :
    ((combine (combineOption s) x y bal).toNat : Int) =
      if (readPatch s 3).toNat = 2 then ((ringByte x y).toNat : Int)
      else if (readPatch s 3).toNat = 3 then ((xorByte x y bal).toNat : Int)
      else ((xfadeByte x y bal).toNat : Int) := by
  unfold combineOption
  split
  · next h => simp [h, combine]
  · next h => simp [h, combine]
  · next h => simp [h, combine]
  · next h2 h3 => rw [if_neg h2, if_neg h3, combine]

/-! ## The sample of a live voice (R340, R345, R460) -/

theorem mixSubNoise_of_costly (h : s.cfg.costlyAlg = some s.voice.osc1.alg) (m s3 : Byte) : mixSubNoise s m s3 = m :=
  if_pos (decide_eq_true h)

theorem mixSubNoise_of_not_costly (h : s.cfg.costlyAlg ≠ some s.voice.osc1.alg) (m s3 : Byte) :
    mixSubNoise s m s3 =
      xfadeByte (xfadeByte m s3 (top8 s.voice.dst.sub)) s.eng.noise (top8 s.voice.dst.noise) :=
  if_neg (by simpa [isCostly] using h)

/-- An audio tick of a live voice returns the sample of the state whose noise is updated. -/
theorem audioStep_sample_of_live (h : s.voice.dead = false) : (audioStep s).2 = voiceSample (noiseUpdate s) := by
  rw [audioStep, voiceAudio_of_live (by simpa using h)]

/-- The noise update leaves what the voice combines. -/
theorem voiceSample_noiseUpdate (s : State) :
    voiceSample (noiseUpdate s) = mixSubNoise (noiseUpdate s)
      (combine (combineOption s) (s.voice.osc1.sample s.cfg) (s.voice.osc2.sample s.cfg) (top8 s.voice.dst.mixBalance))
      (s.voice.sub.sample s.cfg) := by
  simp only [voiceSample, combineOption_noiseUpdate, noiseUpdate_frame]

/-- Settles O52: each form of the mix is its integer formula, none of which leaves a byte. -/
theorem liveVoiceSample : Obligations.LiveVoiceSample := by
  intro s hlive
  refine ⟨_, execAudio_eq s, ?_⟩
  intro s1 s2 s3 bal opt m sub noise m'
  have hm : ((combine (combineOption s) (s.voice.osc1.sample s.cfg) (s.voice.osc2.sample s.cfg)
      (top8 s.voice.dst.mixBalance)).toNat : Int) = m := by
    rw [combine_toNat, ringByte_toNat, xorByte_toNat, xfadeByte_toNat, top8_toNat]
    rfl
  have hresp : ((audioStep s).1.respond (audioStep s).2).eng.resp = voiceSample (noiseUpdate s) :=
    audioStep_sample_of_live hlive
  have hnoise : ((audioStep s).1.respond (audioStep s).2).eng.noise = (noiseUpdate s).eng.noise := by
    rw [State.respond, setEng_eng, audioStep_eng]
  have hvoice : (noiseUpdate s).voice = s.voice := by simp
  rw [hresp, hnoise, voiceSample_noiseUpdate]
  split
  · next h => rw [mixSubNoise_of_costly (by simpa using h), hm]
  · next h =>
    rw [mixSubNoise_of_not_costly (by simpa using h), hvoice, xfadeByte_toNat, xfadeByte_toNat, hm, top8_toNat, top8_toNat]
    rfl

end Sys2Proof.Machine
end

section
/-! The voice's notes and its glide (43_voice.md R310 to R312, R317): a trigger by its legato and its portamento, a NOTE_OFF
by what it leaves held, and one step of the glide. -/

namespace Sys2Proof.Machine

variable {s : State} {v : Voice}

/-! ## The trigger (R310, R311) -/

/-- An ATTACK restarts every envelope from its value, a dead one too (R205). -/
theorem Envelope.trigger_attack (e : Envelope) : e.trigger .attack = { e with stage := .attack } :=
  if_neg fun h => h.2 rfl

theorem startEnvelopes_of_restart :
    v.startEnvelopes false = { v with
      env1 := { v.env1 with stage := .attack }, env2 := { v.env2 with stage := .attack }, retriggered := true } := by
  rw [← Envelope.trigger_attack, ← Envelope.trigger_attack]
  rfl

/-- With no portamento, or from a dead voice, the pitch jumps. -/
theorem startGlide_of_jump {ticks : Nat} {wasDead : Bool} (h : ticks = 0 ∨ wasDead = true) :
    v.startGlide ticks wasDead = { v with pitch := v.target, glideInc := 0 } := if_pos h

/-- Otherwise the pitch stays, and the glide step is set by the distance to the target. -/
theorem startGlide_of_glide {ticks : Nat} (h : ticks ≠ 0) {d : Int} (hdist : v.target.toInt - v.pitch.toInt = d) :
    v.startGlide ticks false = { v with
      glideInc :=
        if d = 0 then 0
        else if storeS16 .glideInc (divT d ticks) = 0 then storeS16 .glideInc (signOf d)
        else storeS16 .glideInc (divT d ticks) } := by
  unfold Voice.startGlide
  rw [if_neg (by simp [h]), hdist]
  dsimp only
  split <;> rfl

theorem signOf_of_ne_zero {d : Int} (h : d ≠ 0) : signOf d = if 0 < d then 1 else -1 := by
  unfold signOf
  split
  · rfl
  · rw [if_pos (by omega)]

/-- A glide step that fits its register is the truncated quotient, or one unit toward the target where that is 0. -/
theorem startGlide_glideInc {ticks : Nat} (h : ticks ≠ 0) {d : Int} (hdist : v.target.toInt - v.pitch.toInt = d)
    (hd : d ≠ 0) (hfit : fitsS16 (d.tdiv ticks)) :
    (v.startGlide ticks false).glideInc.toInt = if d.tdiv ticks ≠ 0 then d.tdiv ticks else if 0 < d then 1 else -1 := by
  have hstep : (storeS16 .glideInc (divT d ticks)).toInt = d.tdiv ticks := storeS16_toInt _ _ hfit
  have hunit : (storeS16 .glideInc (signOf d)).toInt = if 0 < d then 1 else -1 := by
    rw [signOf_of_ne_zero hd]
    exact storeS16_toInt _ _ (by unfold fitsS16; split <;> decide)
  have hzero : storeS16 .glideInc (divT d ticks) = 0 ↔ d.tdiv ticks = 0 := by
    rw [← BitVec.toInt_inj, hstep]
    rfl
  rw [startGlide_of_glide h hdist]
  dsimp only
  rw [if_neg hd]
  by_cases hq : d.tdiv ticks = 0
  · rw [if_pos (hzero.mpr hq), if_neg (not_not.mpr hq), hunit]
  · rw [if_neg (mt hzero.mp hq), if_pos hq, hstep]

/-- The voice of a trigger between its envelopes and its glide. -/
def triggeredVoice (s : State) (n : Byte) (vel : BitVec 7) (legato : Bool) : Voice :=
  { ({ s.voice with note := n, velocity := vel, target := storeS16 .target (notePitch s n) } : Voice).startEnvelopes
      (legato && !s.voice.dead) with
    gate := true, dead := false }

theorem voiceTrigger_eq_startGlide (s : State) (n : Byte) (vel : BitVec 7) (legato : Bool) :
    voiceTrigger s n vel legato =
      s.setVoice ((triggeredVoice s n vel legato).startGlide (portaTicks s.cfg (readPatch s 29).toNat) s.voice.dead) := rfl

theorem triggeredVoice_eq (s : State) (n : Byte) (vel : BitVec 7) (legato : Bool) :
    triggeredVoice s n vel legato = { s.voice with
      note := n
      velocity := vel
      target := storeS16 .target (notePitch s n)
      gate := true
      dead := false
      env1 := (triggeredVoice s n vel legato).env1
      env2 := (triggeredVoice s n vel legato).env2
      retriggered := (triggeredVoice s n vel legato).retriggered } := by
  unfold triggeredVoice
  rw [startEnvelopes_eq]

/-- A trigger writes, of the voice, its note, its pitch and glide, its flags and its envelopes. -/
theorem voiceTrigger_voice (s : State) (n : Byte) (vel : BitVec 7) (legato : Bool) :
    (voiceTrigger s n vel legato).voice = { s.voice with
      pitch := (voiceTrigger s n vel legato).voice.pitch
      target := storeS16 .target (notePitch s n)
      glideInc := (voiceTrigger s n vel legato).voice.glideInc
      note := n
      velocity := vel
      gate := true
      dead := false
      retriggered := (triggeredVoice s n vel legato).retriggered
      env1 := (triggeredVoice s n vel legato).env1
      env2 := (triggeredVoice s n vel legato).env2 } := by
  rw [voiceTrigger_eq_startGlide, setVoice_voice, startGlide_eq, triggeredVoice_eq]

/-- Settles O28: the envelopes by whether the trigger is legato on a live voice, the glide by whether it jumps. -/
theorem triggerSetsPitchGlideAndEnvelopes : Obligations.TriggerSetsPitchGlideAndEnvelopes := by
  intro s n vel legato t p ticks d hfit
  have hvoice : t.voice = _ := voiceTrigger_voice s n vel legato
  have hglide : t.voice = (triggeredVoice s n vel legato).startGlide ticks s.voice.dead := rfl
  have htarget : (storeS16 .target (notePitch s n)).toInt = p := storeS16_toInt _ _ hfit
  have hdist : (triggeredVoice s n vel legato).target.toInt - (triggeredVoice s n vel legato).pitch.toInt = d := by
    rw [triggeredVoice_eq]
    exact congrArg (· - s.voice.pitch.toInt) htarget
  refine ⟨congrArg Voice.note hvoice, congrArg Voice.velocity hvoice, ?_, congrArg Voice.gate hvoice,
    congrArg Voice.dead hvoice, fun h => ?_, fun h => ?_, fun h => ?_,
    fun ⟨hticks, hlive⟩ => ⟨?_, fun hd => ?_, fun ⟨hd, hq⟩ => ?_⟩, ?_⟩
  · rw [hvoice]
    exact htarget
  · have hlegato : (legato && !s.voice.dead) = true := by simp [h]
    rw [hvoice, triggeredVoice, hlegato]
    exact ⟨rfl, rfl, rfl⟩
  · have hrestart : (legato && !s.voice.dead) = false := by simpa using h
    rw [hvoice, triggeredVoice, hrestart, startEnvelopes_of_restart]
    exact ⟨rfl, rfl, rfl⟩
  · rw [hglide, startGlide_of_jump h]
    exact ⟨rfl, rfl⟩
  · rw [hglide, hlive, startGlide_of_glide hticks hdist, triggeredVoice_eq]
  · rw [hglide, hlive, startGlide_of_glide hticks hdist]
    exact if_pos hd
  · rw [hglide, hlive]
    exact startGlide_glideInc hticks hdist hd hq
  · change s.setVoice t.voice = _
    rw [hvoice]
    rfl

/-! ## NOTE_OFF (R376, R423) -/

theorem exec_noteOff_of_accept {ch : BitVec 4} (h : accept s ch = true) (k v : BitVec 7) :
    exec (.noteOff ch k v) s = .next (ctlNoteOff s k) := congrArg _ (onChannel_of_accept h _)

theorem isHeld_iff (held : List HeldNote) (n : BitVec 7) : isHeld held n = true ↔ ∃ h ∈ held, h.note = n := by
  simp [isHeld]

theorem ctlNoteOff_of_not_held {n : BitVec 7} (h : ¬ isHeld s.ctl.held n = true) : ctlNoteOff s n = s := if_neg h

theorem ctlNoteOff_of_last {n : BitVec 7} (h : isHeld s.ctl.held n = true) (hrest : heldRemove s.ctl.held n = []) :
    ctlNoteOff s n = voiceRelease (s.setCtl { s.ctl with held := [] }) := by
  simp only [ctlNoteOff, h, hrest, if_true, List.getLast?_nil]

/-- A note-off that leaves notes held, the most recent of them `m`. -/
theorem ctlNoteOff_of_rest {n : BitVec 7} {before : List HeldNote} {m : HeldNote} (h : isHeld s.ctl.held n = true)
    (hrest : heldRemove s.ctl.held n = before ++ [m]) :
    ctlNoteOff s n =
      if arpMode s = .off ∧ s.ctl.held.getLast?.map HeldNote.note = some n then
        voiceTrigger (s.setCtl { s.ctl with held := heldRemove s.ctl.held n }) (noteByte m.note) m.velocity s.cfg.legato
      else s.setCtl { s.ctl with held := heldRemove s.ctl.held n } := by
  simp only [ctlNoteOff, h, hrest, if_true, List.getLast?_concat, Bool.and_eq_true, decide_eq_true_eq]

/-- Settles O30: the note is held or not, and what the note-off leaves held is empty or ends in a most recent note. -/
theorem noteOffReleasesOrReturns : Obligations.NoteOffReleasesOrReturns := by
  intro s ch k v haccept rest wasLast
  rw [exec_noteOff_of_accept haccept]
  refine ⟨fun hnone => ?_, fun hheld hrest => ?_, fun before m hrest hheld => ?_⟩
  · rw [ctlNoteOff_of_not_held]
    rw [isHeld_iff]
    exact fun ⟨h, hmem, hnote⟩ => hnone h hmem hnote
  · rw [ctlNoteOff_of_last ((isHeld_iff _ _).mpr hheld) hrest, ← Envelope.trigger_release, ← Envelope.trigger_release]
    rfl
  · rw [ctlNoteOff_of_rest ((isHeld_iff _ _).mpr hheld) hrest]
    rfl

/-! ## The glide (R317) -/

/-- Settles O40: a step that does not reach the target stops short of a value of the register, so it does not wrap. -/
theorem glideMovesAndSnaps : Obligations.GlideMovesAndSnaps := by
  intro v p g reaches
  refine ⟨fun h => ?_, fun h => ?_⟩
  · unfold Voice.glide
    rcases h with h | h
    · exact if_pos h
    · rw [if_neg (by omega), if_pos h]
  · have hmove : v.glide = { v with pitch := v.pitch + v.glideInc } := by
      unfold Voice.glide
      rw [if_neg (fun hup => h (.inl hup)), if_neg (fun hdown => h (.inr hdown))]
    rw [hmove]
    refine ⟨rfl, ?_⟩
    have hlt := v.target.toInt_lt
    have hle := v.target.le_toInt
    have hpitch := v.pitch.toInt_lt
    have hpitch' := v.pitch.le_toInt
    rw [BitVec.toInt_add]
    exact Int.bmod_eq_of_le (by omega) (by omega)

end Sys2Proof.Machine
end

section
/-! The control tick of the voice (43_voice.md R313 to R317, 45_engine_commands.md R450, R451): the registers that CONTROL
writes before its output registers, the draws it makes, and the two source tables, read from the state it leaves. -/

namespace Sys2Proof.Machine

variable {s : State}

/-! ## The voice's registers (R314, R316, R317) -/

theorem renderEnvelopes_glide (v : Voice) :
    v.renderEnvelopes.glide = { v.renderEnvelopes with pitch := v.glide.pitch, glideInc := v.glide.glideInc } := by
  obtain ⟨hpitch, hinc⟩ := glide_renderEnvelopes v
  rw [glide_eq, hpitch, hinc]

theorem renderEnvelopes_dead_eq (v : Voice) :
    v.renderEnvelopes.dead =
      (decide (v.env1.render.stage = .dead) && decide (v.env2.render.stage = .dead) && !v.retriggered) := rfl

theorem updateOscs_voice_registers (s : State) :
    (updateOscs s).voice = { s.voice with
      osc1 := { s.voice.osc1 with inc := (updateOscs s).voice.osc1.inc, aux := (updateOscs s).voice.osc1.aux }
      osc2 := { s.voice.osc2 with inc := (updateOscs s).voice.osc2.inc, aux := (updateOscs s).voice.osc2.aux }
      sub := { s.voice.sub with inc := (updateOscs s).voice.sub.inc, aux := (updateOscs s).voice.sub.aux } } := rfl

/-- The voice's tick keeps the note, its gate and target, the wrap detector and the oscillators' algorithms and phases. -/
theorem voiceControl_voice (s : State) :
    (voiceControl s).voice = { s.voice with
      pitch := s.voice.glide.pitch
      glideInc := s.voice.glide.glideInc
      dead := s.voice.renderEnvelopes.dead
      retriggered := false
      env1 := s.voice.env1.render
      env2 := s.voice.env2.render
      vsrc := (voiceControl s).voice.vsrc
      dst := (voiceControl s).voice.dst
      vca := (voiceControl s).voice.vca
      osc1 := { s.voice.osc1 with inc := (voiceControl s).voice.osc1.inc, aux := (voiceControl s).voice.osc1.aux }
      osc2 := { s.voice.osc2 with inc := (voiceControl s).voice.osc2.inc, aux := (voiceControl s).voice.osc2.aux }
      sub := { s.voice.sub with inc := (voiceControl s).voice.sub.inc, aux := (voiceControl s).voice.sub.aux } } := by
  rw [voiceControl_eq, updateOscs_voice_registers, resolveMatrix_voice, setVoice_voice, renderEnvelopes_glide]
  rfl

/-- The state on which CONTROL runs the voice's tick: LFOs and controller advanced, every global source refreshed. -/
def tickedEngine (s : State) : State := refreshSources (drawRandom (controllerTick (advanceLfos s)))

theorem controlCore_eq (s : State) : controlCore s = voiceControl (tickedEngine s) := rfl

theorem tickedEngine_voice (s : State) : (tickedEngine s).voice = (controllerTick (advanceLfos s)).voice := by
  simp [tickedEngine]

/-- CONTROL leaves its core's state but for the output side, the schedule and the record of outputs. -/
theorem exec_control_eq (s : State) :
    exec .control s = .next { controlCore s with
      out := (runSubSteps cvWrites (controlCore s)).out
      sched := (runSubSteps cvWrites (controlCore s)).sched
      emitted := (runSubSteps cvWrites (controlCore s)).emitted } := by
  rw [execControl_eq, ← cvWrites_eq]

/-- Settles O42: the voice's tick runs on the voice of the state before it, since no note is played. -/
theorem controlRendersEnvelopesAndDerivesDead : Obligations.ControlRendersEnvelopesAndDerivesDead := by
  intro s hnote
  have hvoice : (tickedEngine s).voice = s.voice := by
    rw [tickedEngine_voice, controllerTick_voice_of_no_note ((arpNoteDue_advanceLfos s).trans hnote)]
    rfl
  refine ⟨_, exec_control_eq s, ?_⟩
  have hcore := voiceControl_voice (tickedEngine s)
  rw [← controlCore_eq, hvoice] at hcore
  dsimp only
  rw [hcore]
  exact ⟨rfl, rfl, renderEnvelopes_dead_eq s.voice, rfl, rfl, rfl, rfl, rfl, rfl⟩

/-! ## What the controller's tick leaves of the voice -/

/-- A trigger, and so a tick that plays an arpeggio note, leaves the oscillators and the wrap detector. -/
theorem controllerTick_voice_frame (s : State) :
    (controllerTick s).voice.osc1 = s.voice.osc1 ∧ (controllerTick s).voice.osc2 = s.voice.osc2 ∧
      (controllerTick s).voice.sub = s.voice.sub ∧ (controllerTick s).voice.prevHigh = s.voice.prevHigh ∧
      (controllerTick s).voice.wrapped = s.voice.wrapped := by
  cases h : arpNoteDue s with
  | false => simp [controllerTick_voice_of_no_note h]
  | true =>
    obtain ⟨w, -, -, -, hw, -, -, hvoice, -⟩ := ctlControl_of_note h
    have htick : (controllerTick s).voice = (arpStep w).voice := by
      rw [← hvoice]
      simp only [controllerTick]
      split <;> simp
    rw [htick, arpStep, voiceTrigger_voice, ← hw]
    exact ⟨rfl, rfl, rfl, rfl, rfl⟩

/-- A voice is itself with those of its registers written that already hold the values written. -/
theorem Voice.eq_with {v : Voice} {o1 o2 o3 : Oscillator} {r w : Bool} {high : Byte} (h1 : v.osc1 = o1) (h2 : v.osc2 = o2)
    (h3 : v.sub = o3) (hr : v.retriggered = r) (hhigh : v.prevHigh = high) (hw : v.wrapped = w) :
    v = { v with osc1 := o1, osc2 := o2, sub := o3, retriggered := r, prevHigh := high, wrapped := w } := by
  subst h1 h2 h3 hr hhigh hw
  rfl

/-- The core of CONTROL keeps the oscillators' algorithms and phases and the wrap detector. -/
theorem controlCore_voice (s : State) :
    (controlCore s).voice = { (controlCore s).voice with
      osc1 := { s.voice.osc1 with inc := (controlCore s).voice.osc1.inc, aux := (controlCore s).voice.osc1.aux }
      osc2 := { s.voice.osc2 with inc := (controlCore s).voice.osc2.inc, aux := (controlCore s).voice.osc2.aux }
      sub := { s.voice.sub with inc := (controlCore s).voice.sub.inc, aux := (controlCore s).voice.sub.aux }
      retriggered := false
      prevHigh := s.voice.prevHigh
      wrapped := s.voice.wrapped } := by
  obtain ⟨h1, h2, h3, hhigh, hwrapped⟩ := controllerTick_voice_frame (advanceLfos s)
  rw [← tickedEngine_voice, show (advanceLfos s).voice = s.voice from rfl] at h1 h2 h3 hhigh hwrapped
  have hcore := voiceControl_voice (tickedEngine s)
  rw [← controlCore_eq] at hcore
  dsimp only at hcore
  rw [h1, h2, h3, hhigh, hwrapped] at hcore
  exact Voice.eq_with (congrArg Voice.osc1 hcore :) (congrArg Voice.osc2 hcore :) (congrArg Voice.sub hcore :)
    (congrArg Voice.retriggered hcore :) (congrArg Voice.prevHigh hcore :) (congrArg Voice.wrapped hcore :)

/-! ## The draws (R300, R450) -/

theorem arpStep_rng (s : State) : (arpStep s).eng.rng = if arpMode s = .random then rngStep s.eng.rng else s.eng.rng := by
  change (arpIndex (arpMode s) _ _ s.eng.rng).2.2 = _
  cases arpMode s <;> rfl

theorem controllerTick_rng (s : State) :
    (controllerTick s).eng.rng =
      if arpNoteDue s = true ∧ arpMode s = .random then rngStep s.eng.rng else s.eng.rng := by
  have htick : (controllerTick s).eng.rng = (ctlControl s).1.eng.rng := by
    simp only [controllerTick]
    split <;> simp
  rw [htick]
  cases h : arpNoteDue s with
  | false => simp [(ctlControl_of_no_note h).2]
  | true =>
    obtain ⟨w, hc, hp, -, -, hrng, -, -, hdraw, -⟩ := ctlControl_of_note h
    rw [hdraw, arpStep_rng, hrng, arpMode_eq_of_patch hc hp]
    simp

/-- The last draw of a tick is the RANDOM source's. -/
theorem controlCore_rng (s : State) : (controlCore s).eng.rng = rngStep (controllerTick (advanceLfos s)).eng.rng := rfl

/-! ## The sources (R315, R451) -/

/-- The global sources are those of the state that the core leaves. -/
theorem controlCore_gsrc (s : State) :
    (controlCore s).eng.gsrc = {
      lfo1 := (controlCore s).lfo1.render s.cfg
      lfo2 := (controlCore s).lfo2.render s.cfg
      wheel := BitVec.ofNat 8 (s.eng.wheel.toNat * 2)
      random := rngOut (controlCore s).eng.rng
      bend := top8 s.eng.bend
      seqValue := (controlCore s).ctl.seqValue
      seqGate := (controlCore s).ctl.seqGate
      cv1 := s.eng.cvIn0
      cv2 := s.eng.cvIn1
      cv3 := s.eng.cvIn2
      cv4 := s.eng.cvIn3 } := by
  have hframe := controllerTick_frame (advanceLfos s)
  rw [controlCore_eq, tickedEngine]
  generalize controllerTick (advanceLfos s) = u at hframe ⊢
  change (refreshSources (drawRandom u)).eng.gsrc = _
  simp_all [refreshSources, drawRandom, rngNext]

/-- Nothing after the refresh of a voice's tick writes what the voice's sources are read from. -/
theorem voiceControl_vsrc (s : State) : (voiceControl s).voice.vsrc = (voiceControl s).voice.refreshSources.vsrc := by
  rw [voiceControl_eq, updateOscs_voice_registers, resolveMatrix_voice, setVoice_voice]
  generalize s.voice.renderEnvelopes.glide = v
  rfl

theorem double_toNat (x : BitVec 7) : (BitVec.ofNat 8 (x.toNat * 2)).toNat = x.toNat * 2 := by
  have := x.isLt
  rw [BitVec.toNat_ofNat]
  omega

/-- The voice's sources in numbers. -/
theorem refreshSources_vsrc (v : Voice) :
    v.refreshSources.vsrc.env1.toNat = v.env1.value.toNat / 64 ∧
      v.refreshSources.vsrc.env2.toNat = v.env2.value.toNat / 64 ∧
      (v.refreshSources.vsrc.pitch.toNat : Int) = max 0 (min 255 (v.pitch.toInt / 64)) ∧
      v.refreshSources.vsrc.velocity.toNat = v.velocity.toNat * 2 ∧
      v.refreshSources.vsrc.gate = if v.gate then 255 else 0 :=
  ⟨env8_toNat _, env8_toNat _, byte_ofInt_clip_toNat _, double_toNat _, rfl⟩

/-- What the core of CONTROL writes, and nothing else: with every register a variable, the frame's equations say it. -/
theorem controlCore_registers (s : State) :
    controlCore s = { s with
      lfo1 := (controlCore s).lfo1
      lfo2 := (controlCore s).lfo2
      voice := { (controlCore s).voice with
        osc1 := { s.voice.osc1 with inc := (controlCore s).voice.osc1.inc, aux := (controlCore s).voice.osc1.aux }
        osc2 := { s.voice.osc2 with inc := (controlCore s).voice.osc2.inc, aux := (controlCore s).voice.osc2.aux }
        sub := { s.voice.sub with inc := (controlCore s).voice.sub.inc, aux := (controlCore s).voice.sub.aux }
        retriggered := false
        prevHigh := s.voice.prevHigh
        wrapped := s.voice.wrapped }
      eng := { s.eng with
        rng := (controlCore s).eng.rng
        gsrc := (controlCore s).eng.gsrc
        lfoSyncSteps := (controlCore s).eng.lfoSyncSteps }
      ctl := { (controlCore s).ctl with
        extRun := s.ctl.extRun, held := s.ctl.held, pulseCtr := s.ctl.pulseCtr } } := by
  have hframe := controlCore_frame s
  rw [← controlCore_voice s]
  generalize controlCore s = u at hframe ⊢
  obtain ⟨_, _, ⟨⟩, _, _, _, ⟨⟩, _, _, _, _, _⟩ := u
  simp_all

/-- Settles O34: the sources are read from the state that the tick leaves, and the frame of its core is that of the state. -/
theorem controlRefreshesEverySource : Obligations.ControlRefreshesEverySource := by
  intro s
  refine ⟨_, exec_control_eq s, ?_, ?_⟩
  · dsimp only
    rw [controlCore_rng, controllerTick_rng]
    rfl
  dsimp only
  obtain ⟨henv1, henv2, hpitch, hvelocity, hgate⟩ := refreshSources_vsrc (controlCore s).voice
  have hvsrc : (controlCore s).voice.refreshSources.vsrc = (controlCore s).voice.vsrc := (voiceControl_vsrc _).symm
  rw [hvsrc] at henv1 henv2 hpitch hvelocity hgate
  have hg := controlCore_gsrc s
  refine ⟨?_, congrArg GlobalSources.lfo1 hg, congrArg GlobalSources.lfo2 hg, ?_, ?_, congrArg GlobalSources.seqValue hg,
    congrArg GlobalSources.seqGate hg, congrArg GlobalSources.cv1 hg, congrArg GlobalSources.cv2 hg,
    congrArg GlobalSources.cv3 hg, congrArg GlobalSources.cv4 hg, henv1, henv2, hpitch, hvelocity, hgate, ?_⟩
  · rw [hg]
    exact rngOut_toNat _
  · rw [hg]
    exact double_toNat _
  · rw [hg]
    exact top8_toNat _
  · have hcore := controlCore_registers s
    generalize runSubSteps cvWrites (controlCore s) = w
    generalize controlCore s = u at hcore ⊢
    exact congrArg (fun x : State => { x with out := w.out, sched := w.sched, emitted := w.emitted }) hcore

end Sys2Proof.Machine
end

section
/-! The modulation matrix and the pitches (43_voice.md R318 to R333): the gain of the VCA slots, the slots without effect,
the fold of a pitch into the table's range, and what CONTROL resolves from the sources it has refreshed. -/

namespace Sys2Proof.Machine

variable {s : State}

/-! ## The gain of a VCA slot (R324, R325) -/

/-- The depth of a VCA slot's cross-fade: twice the size of its amount, which the wheel scales in the last slot. -/
def vcaDepth (wheel : Byte) (amt : Int) (last : Bool) : Int :=
  min 255 (2 * (if last then (amt.natAbs : Int) * wheel.toNat / 256 else amt.natAbs))

theorem vcaCombine_eq (wheel : Byte) (gain value amt : Int) (last : Bool) :
    vcaCombine wheel gain value amt last =
      gain * (xfade 255 (if amt < 0 then 255 - value else value) (vcaDepth wheel amt last) + 1) / 256 := rfl

theorem vcaDepth_bounds (wheel : Byte) (amt : Int) (last : Bool) :
    0 ≤ vcaDepth wheel amt last ∧ vcaDepth wheel amt last ≤ 255 := by
  have hscaled : 0 ≤ (amt.natAbs : Int) * wheel.toNat / 256 := Int.ediv_nonneg (by positivity) (by decide)
  unfold vcaDepth
  split <;> omega

theorem vcaCombine_bounds {gain value : Int} (hg : 0 ≤ gain ∧ gain ≤ 255) (hv : 0 ≤ value ∧ value ≤ 255)
    (wheel : Byte) (amt : Int) (last : Bool) :
    0 ≤ vcaCombine wheel gain value amt last ∧ vcaCombine wheel gain value amt last ≤ 255 := by
  obtain ⟨h0, h1⟩ := vcaDepth_bounds wheel amt last
  rw [vcaCombine_eq]
  generalize hfaded : xfade 255 (if amt < 0 then 255 - value else value) (vcaDepth wheel amt last) = g
  have hg' : 0 ≤ g ∧ g ≤ 255 := by
    obtain ⟨hlow, hhigh⟩ := xfade_bounds (a := 255) (b := if amt < 0 then 255 - value else value) h0 h1
    rw [hfaded] at hlow hhigh
    split at hlow <;> omega
  have hlow : 0 ≤ gain * (g + 1) := mul_nonneg hg.1 (by omega)
  have hhigh : gain * (g + 1) ≤ 255 * 256 := mul_le_mul hg.2 (by omega) (by omega) (by omega)
  omega

/-- A negative amount is the opposite amount on the mirrored source. -/
theorem vcaCombine_mirror {amt : Int} (h : amt < 0) (wheel : Byte) (gain value : Int) (last : Bool) :
    vcaCombine wheel gain value amt last = vcaCombine wheel gain (255 - value) (-amt) last := by
  rw [vcaCombine_eq, vcaCombine_eq, if_pos h, if_neg (by omega), vcaDepth, vcaDepth, Int.natAbs_neg]

/-! ## The gain of the matrix (R320, R323) -/

/-- What slot i makes of the gain: only a VCA slot of nonzero amount changes it. -/
def vcaStep (s : State) (gain : Int) (i : Nat) : Int :=
  if slotAmount s i ≠ 0 ∧ slotTarget s i = .vca then
    vcaCombine s.eng.gsrc.wheel gain (sourceValue s (slotSource s i)).toNat (slotAmount s i)
      (decide (i + 1 = s.cfg.numModSlots))
  else gain

theorem applySlot_of_zero {i : Nat} (h : slotAmount s i = 0) (m : Matrix) : applySlot s m i = m := if_pos h

theorem applySlot_vca {i : Nat} (hi : i < s.cfg.numModSlots) (m : Matrix) : (applySlot s m i).vca = vcaStep s m.vca i := by
  have hlast : decide (i = s.cfg.numModSlots - 1) = decide (i + 1 = s.cfg.numModSlots) := decide_eq_decide.mpr (by omega)
  unfold vcaStep
  by_cases h0 : slotAmount s i = 0
  · rw [applySlot_of_zero h0, if_neg (fun h => h.1 h0)]
  · simp only [applySlot, h0, if_false, hlast]
    cases slotTarget s i <;> simp [h0, Matrix.additive]

theorem foldl_applySlot_vca {l : List Nat} (hl : ∀ i ∈ l, i < s.cfg.numModSlots) (m : Matrix) :
    (l.foldl (applySlot s) m).vca = l.foldl (vcaStep s) m.vca := by
  induction l generalizing m with
  | nil => rfl
  | cons i l ih =>
    rw [List.foldl_cons, List.foldl_cons, ih (fun j hj => hl j (List.mem_cons_of_mem i hj)),
      applySlot_vca (hl i List.mem_cons_self)]

theorem matrixOf_vca (s : State) : (matrixOf s).vca = (List.range s.cfg.numModSlots).foldl (vcaStep s) 255 :=
  foldl_applySlot_vca (fun _ => List.mem_range.mp) (initialMatrix s)

theorem vcaStep_bounds {gain : Int} (h : 0 ≤ gain ∧ gain ≤ 255) (i : Nat) :
    0 ≤ vcaStep s gain i ∧ vcaStep s gain i ≤ 255 := by
  have hvalue := (sourceValue s (slotSource s i)).isLt
  unfold vcaStep
  split
  · exact vcaCombine_bounds h (by omega) _ _ _
  · exact h

theorem matrixOf_vca_bounds (s : State) : 0 ≤ (matrixOf s).vca ∧ (matrixOf s).vca ≤ 255 := by
  rw [matrixOf_vca]
  exact List.foldlRecOn (motive := fun gain : Int => 0 ≤ gain ∧ gain ≤ 255) _ _ (by decide)
    fun _ h i _ => vcaStep_bounds h i

/-- Settles O37: one slot's formula, the fold of the slots over it, and the bounds that each slot keeps. -/
theorem vcaGainIsBoundedAndMirrored : Obligations.VcaGainIsBoundedAndMirrored := by
  refine ⟨fun wheel value gain amt last => ?_, matrixOf_vca, matrixOf_vca_bounds,
    fun wheel value gain amt last _ h => vcaCombine_mirror (by omega) wheel gain value.toNat last⟩
  have habs : (amt.natAbs : Int) = if amt < 0 then -amt else amt := by split <;> omega
  rw [vcaCombine_eq, vcaDepth, habs]
  rfl

/-! ## Slots without effect (R322, R351) -/

theorem slotAmount_writePatch_route (i j : Nat) (r : Byte) : slotAmount (writePatch s (offRoute i) r) j = slotAmount s j :=
  congrArg sext8 (readPatch_writePatch_other (by unfold offAmount offRoute; omega))

/-- A route byte is read by its own slot alone, which its amount of 0 skips. -/
theorem applySlot_writePatch_route {i : Nat} (h : slotAmount s i = 0) (r : Byte) :
    applySlot (writePatch s (offRoute i) r) = applySlot s := by
  funext m j
  have hamount := slotAmount_writePatch_route (s := s) i j r
  by_cases hj : j = i
  · subst hj
    rw [applySlot_of_zero h, applySlot_of_zero (hamount.trans h)]
  · have hroute : readPatch (writePatch s (offRoute i) r) (offRoute j) = readPatch s (offRoute j) :=
      readPatch_writePatch_other (by unfold offRoute; omega)
    have hsource : slotSource (writePatch s (offRoute i) r) j = slotSource s j :=
      congrArg (fun b : Byte => Source.ofNibble (b.extractLsb' 0 4)) hroute
    have htarget : slotTarget (writePatch s (offRoute i) r) j = slotTarget s j :=
      congrArg (fun b : Byte => Target.ofNibble (b.extractLsb' 4 4)) hroute
    unfold applySlot
    rw [hamount, hsource, htarget]
    rfl

/-- Settles O36: the initial values and the hardcoded modulations read the parameter region, and no slot sees the byte. -/
theorem zeroAmountSlotsHaveNoEffect : Obligations.ZeroAmountSlotsHaveNoEffect := by
  intro s i r _ _ h
  have hparam (a : Nat) (ha : a < 31) : readPatch (writePatch s (offRoute i) r) a = readPatch s a :=
    readPatch_writePatch_other (by unfold offRoute; omega)
  have hamount : slotAmount s i = 0 := congrArg sext8 h
  have hinitial : initialMatrix (writePatch s (offRoute i) r) = initialMatrix s := by
    simp [initialMatrix, scaled7, hparam]
  have hhard (m : Matrix) : hardcoded (writePatch s (offRoute i) r) m = hardcoded s m := by
    simp [hardcoded, hparam]
  rw [matrixOf, applySlots, applySlot_writePatch_route hamount, hinitial, hhard]
  rfl

/-! ## The fold (R331) -/

section
variable {c : Config} {p : Int}

theorem fold_of_range (h0 : 0 ≤ p) (h1 : p ≤ (c.tableBase : Int) + 1535) : fold c p = p := by
  have hlow : ¬ p < pitchMin := Int.not_lt.mpr h0
  have hhigh : ¬ pitchMax c < p := Int.not_lt.mpr h1
  simp only [fold, hlow, hhigh, if_false]

/-- A pitch below the range is raised to its lowest octave, which the range holds. -/
theorem fold_of_neg (h : p < 0) : fold c p = p + 1536 * ((0 - p + 1535) / 1536) := by
  have hlow : p < pitchMin := h
  have hhigh : ¬ pitchMax c < p + 1536 * ((pitchMin - p + 1535) / 1536) := by
    unfold pitchMin pitchMax
    omega
  simp only [fold, hlow, hhigh, if_true, if_false]
  rfl

theorem fold_of_gt (h : (c.tableBase : Int) + 1535 < p) :
    fold c p = p - 1536 * ((p - ((c.tableBase : Int) + 1535) + 1535) / 1536) := by
  have hlow : ¬ p < pitchMin := by
    unfold pitchMin
    omega
  have hhigh : pitchMax c < p := h
  simp only [fold, hlow, hhigh, if_true, if_false]
  rfl

end

/-- Settles O38: below, in and above the range, each division counts the octaves of its loop. -/
theorem foldLandsInTheTableRange : Obligations.FoldLandsInTheTableRange := by
  intro c p q
  rcases Int.lt_or_le p 0 with hneg | hnonneg
  · have hq : q = _ := fold_of_neg hneg
    omega
  · rcases Int.lt_or_le ((c.tableBase : Int) + 1535) p with habove | hrange
    · have hq : q = _ := fold_of_gt habove
      omega
    · have hq : q = _ := fold_of_range hnonneg hrange
      omega

/-! ## What CONTROL resolves (R327, R330 to R333) -/

theorem sext7_eq (b : Byte) : sext7 b = (((b.toNat % 128 + 64) % 128 : Nat) : Int) - 64 := by
  have hlow : (b.extractLsb' 0 7).toNat = b.toNat % 128 := low7_eq_mod b
  rw [sext7, BitVec.toInt_eq_toNat_cond, hlow]
  split <;> omega

/-- The voice's tick resolves the matrix of the state it leaves. -/
theorem voiceControl_matrix (s : State) :
    (voiceControl s).voice.dst = (matrixOf (voiceControl s)).acc.map clip14 ∧
      (voiceControl s).voice.vca = BitVec.ofInt 8 (matrixOf (voiceControl s)).vca := by
  rw [voiceControl_eq]
  generalize s.setVoice s.voice.renderEnvelopes.glide.refreshSources = u
  have hmatrix : matrixOf (updateOscs (resolveMatrix u)) = matrixOf u := matrixOf_congr rfl rfl rfl rfl rfl
  rw [hmatrix]
  exact ⟨rfl, rfl⟩

/-- The oscillators are updated from the pitches and shapes of the state that the voice's tick leaves. -/
theorem voiceControl_oscs (s : State) :
    let t := voiceControl s
    t.voice.osc1 = t.voice.osc1.update t.cfg (top8 t.voice.dst.pwm1) (fold t.cfg (pitch1 t)) ∧
      t.voice.osc2 = t.voice.osc2.update t.cfg (top8 t.voice.dst.pwm2) (fold t.cfg (pitch2 t)) ∧
      t.voice.sub = t.voice.sub.update t.cfg 0 (fold t.cfg (pitch3 t)) := by
  rw [voiceControl_eq]
  generalize resolveMatrix _ = u
  exact ⟨rfl, rfl, rfl⟩

/-- The pitches of oscillators 1 and 2 in numbers (R330). -/
theorem pitch_eq (s : State) :
    let signed7 := fun a : Nat => ((((readPatch s a).toNat % 128 + 64) % 128 : Nat) : Int) - 64
    let common := signed7 27 * 1536 + ((s.voice.dst.finePitch.toNat : Int) - 8192) / 64
    pitch1 s = s.voice.pitch.toInt + signed7 2 * 128 + common + ((s.voice.dst.osc1Pitch.toNat : Int) - 8192) / 8 ∧
      pitch2 s = s.voice.pitch.toInt + signed7 6 * 128 + common + ((s.voice.dst.osc2Pitch.toNat : Int) - 8192) / 8
        + ((readPatch s 7).toNat % 128 : Nat) := by
  simp only [pitch1, pitch2, commonPitch, sext7_eq, low7_eq_mod]
  exact ⟨rfl, rfl⟩

theorem outAmplitude_toNat (s : State) :
    (outAmplitude s).toNat = s.voice.env2.value.toNat / 64 * (s.voice.vca.toNat + 1) / 256 := by
  have henv := s.voice.env2.env8.isLt
  have hvca := s.voice.vca.isLt
  have hle : s.voice.env2.env8.toNat * (s.voice.vca.toNat + 1) ≤ 255 * 256 := Nat.mul_le_mul (by omega) (by omega)
  rw [outAmplitude, BitVec.toNat_ofNat, Nat.mod_eq_of_lt (by omega), env8_toNat]

/-- Settles O35: the voice's tick resolves the matrix and the pitches of the state it leaves, and the output registers follow
that state whatever consumer steps fall between their writes. -/
theorem controlResolvesTheMatrix : Obligations.ControlResolvesTheMatrix := by
  intro s
  refine ⟨_, exec_control_eq s, ?_⟩
  have hcfg : (controlCore s).cfg = s.cfg := by simp
  have hread : readPatch (controlCore s) = readPatch s := readPatch_eq_of_patch hcfg (by simp)
  obtain ⟨hcutoff, hresonance, hamplitude⟩ := cvWrites_out (controlCore s)
  obtain ⟨hdst, hvca⟩ := voiceControl_matrix (tickedEngine s)
  obtain ⟨hosc1, hosc2, hsub⟩ := voiceControl_oscs (tickedEngine s)
  rw [← controlCore_eq] at hdst hvca hosc1 hosc2 hsub
  generalize runSubSteps cvWrites (controlCore s) = w at hcutoff hresonance hamplitude ⊢
  generalize controlCore s = u at hcfg hread hdst hvca hosc1 hosc2 hsub hcutoff hresonance hamplitude ⊢
  intro signed7 common p1 p2
  obtain ⟨hp1, hp2⟩ := pitch_eq u
  rw [hread] at hp1 hp2
  have hmatrix : matrixOf { u with out := w.out, sched := w.sched, emitted := w.emitted } = matrixOf u :=
    matrixOf_congr rfl rfl rfl rfl rfl
  rw [hcfg] at hosc1 hosc2 hsub
  refine ⟨fun d => ?_, ?_, ?_, ?_, ?_, ?_, ?_, ?_, ?_, ?_, ?_⟩
  · rw [← matrixOf_acc, hmatrix, ← clip14_toNat, ← dests_get_map clip14, ← hdst]
  · obtain ⟨hlow, hhigh⟩ := matrixOf_vca_bounds u
    rw [hmatrix, ← byte_ofInt_toNat hlow hhigh, ← hvca]
  · exact (congrArg Oscillator.inc hosc1).trans (congrArg (fun p => pitchIncrement s.cfg (fold s.cfg p)) hp1)
  · exact (congrArg Oscillator.inc hosc2).trans (congrArg (fun p => pitchIncrement s.cfg (fold s.cfg p)) hp2)
  · exact (congrArg Oscillator.inc hsub).trans (congrArg (fun p => pitchIncrement s.cfg (fold s.cfg (p - 1536))) hp1)
  · exact (congrArg (fun o => o.aux.toNat) hosc1).trans (top8_toNat _)
  · exact (congrArg (fun o => o.aux.toNat) hosc2).trans (top8_toNat _)
  · exact congrArg Oscillator.aux hsub
  · exact (congrArg BitVec.toNat hcutoff).trans (top8_toNat _)
  · exact (congrArg BitVec.toNat hresonance).trans (top8_toNat _)
  · exact (congrArg BitVec.toNat hamplitude).trans (outAmplitude_toNat u)

end Sys2Proof.Machine
end

section
/-! The controller's commands (44_voice_controller.md R372, R375, R394 to R396): NOTE_ON by the room among the held notes, and
the external clock by its pulse count. -/

namespace Sys2Proof.Machine

variable {s : State}

/-! ## NOTE_ON (R375, R422) -/

theorem exec_noteOn_of_velocity_zero (ch : BitVec 4) (k v : BitVec 7) (s : State) :
    exec (.noteOn ch k 0) s = exec (.noteOff ch k v) s := rfl

theorem exec_noteOn_of_accept {ch : BitVec 4} (h : accept s ch = true) (k : BitVec 7) {v : BitVec 7} (hv : v ≠ 0) :
    exec (.noteOn ch k v) s = .next (ctlNoteOn s k v) :=
  congrArg _ ((onChannel_of_accept h (noteOnBody k v)).trans (if_neg hv))

theorem heldAdd_of_room {held : List HeldNote} {n : BitVec 7} (h : (heldRemove held n).length < 16) (v : BitVec 7) :
    heldAdd held n v = heldRemove held n ++ [⟨n, v⟩] := if_pos h

theorem heldAdd_of_full {held : List HeldNote} {n : BitVec 7} (h : 16 ≤ (heldRemove held n).length) (v : BitVec 7) :
    heldAdd held n v = heldRemove held n := if_neg (Nat.not_lt.mpr h)

theorem isHeld_heldRemove (held : List HeldNote) (n : BitVec 7) : isHeld (heldRemove held n) n = false := by
  simp [isHeld, heldRemove]

theorem isHeld_concat (held : List HeldNote) (n v : BitVec 7) : isHeld (held ++ [⟨n, v⟩]) n = true := by
  simp [isHeld]

theorem ctlNoteOn_of_full {n : BitVec 7} (h : 16 ≤ (heldRemove s.ctl.held n).length) (v : BitVec 7) :
    ctlNoteOn s n v = s.setCtl { s.ctl with held := heldRemove s.ctl.held n } := by
  simp [ctlNoteOn, heldAdd_of_full h, isHeld_heldRemove]

theorem ctlNoteOn_of_room {n : BitVec 7} (h : (heldRemove s.ctl.held n).length < 16) (v : BitVec 7) :
    ctlNoteOn s n v =
      if arpMode s = .off then
        voiceTrigger (s.setCtl { s.ctl with held := heldRemove s.ctl.held n ++ [⟨n, v⟩] }) (noteByte n) v
          (s.cfg.legato && !s.ctl.held.isEmpty)
      else s.setCtl { s.ctl with held := heldRemove s.ctl.held n ++ [⟨n, v⟩] } := by
  simp [ctlNoteOn, heldAdd_of_room h, isHeld_concat]

/-- Settles O29: the other held notes leave room or not, and with room the arpeggiator mode decides on the trigger. -/
theorem noteOnHoldsAndTriggers : Obligations.NoteOnHoldsAndTriggers := by
  intro s ch k v
  refine ⟨exec_noteOn_of_velocity_zero ch k v s, ?_⟩
  intro haccept hv others
  rw [exec_noteOn_of_accept haccept k hv]
  refine ⟨fun hnew hfull => ?_, fun hfull => ?_, fun hroom harp => ?_, fun hroom hoff => ?_⟩
  · have hothers : heldRemove s.ctl.held k = s.ctl.held := List.filter_eq_self.mpr (by simpa using hnew)
    rw [ctlNoteOn_of_full (by rw [hothers, hfull]), hothers]
    rfl
  · rw [ctlNoteOn_of_full hfull]
    rfl
  · rw [ctlNoteOn_of_room hroom, if_neg harp]
    rfl
  · rw [ctlNoteOn_of_room hroom, if_pos hoff]
    rfl

/-! ## CLOCK, START and STOP (R394 to R396) -/

theorem ctlClock_of_not_running (h : ¬ (extClock s = true ∧ s.ctl.extRun = true)) : ctlClock s = s :=
  if_neg (by rwa [Bool.and_eq_true])

section
variable (hclock : extClock s = true) (hrun : s.ctl.extRun = true)
include hclock hrun

theorem ctlClock_of_lt (h : s.ctl.pulseCtr + 1 < s.cfg.clocksPerStep) :
    ctlClock s = s.setCtl { s.ctl with pulseCtr := s.ctl.pulseCtr + 1 } := by
  simp [ctlClock, hclock, hrun, Nat.not_le.mpr h]

theorem ctlClock_of_le (h : s.cfg.clocksPerStep ≤ s.ctl.pulseCtr + 1) :
    ctlClock s = s.setCtl { s.ctl with
      pulseCtr := 0, extPending := BitVec.ofNat 8 (min 255 (s.ctl.extPending.toNat + 1)) } := by
  simp [ctlClock, hclock, hrun, h]

end

/-- Settles O31: the clock is running or not, and the pulse it counts is the last of a step or not. -/
theorem clockStartAndStop : Obligations.ClockStartAndStop := by
  intro s
  refine ⟨fun h => congrArg _ (ctlClock_of_not_running h), fun hclock hrun h => congrArg _ (ctlClock_of_lt hclock hrun h),
    fun hclock hrun h => congrArg _ (ctlClock_of_le hclock hrun h), rfl, rfl⟩

/-- From any pulse count, the clocks that are left of a step make one boundary due (R394). -/
theorem execAll_clocks (n : Nat) (hclock : extClock s = true) (hrun : s.ctl.extRun = true)
    (hcount : s.ctl.pulseCtr + (n + 1) = s.cfg.clocksPerStep) :
    execAll (List.replicate (n + 1) .clock) s = .next (s.setCtl { s.ctl with
      pulseCtr := 0, extPending := BitVec.ofNat 8 (min 255 (s.ctl.extPending.toNat + 1)) }) := by
  induction n generalizing s with
  | zero => exact congrArg _ (ctlClock_of_le hclock hrun hcount.ge)
  | succ n ih =>
    change execAll (List.replicate (n + 1) .clock) (ctlClock s) = _
    rw [ctlClock_of_lt hclock hrun (by omega)]
    exact ih hclock hrun (by simp only [setCtl_ctl, setCtl_cfg]; omega)

/-- Settles O32: from a count of 0 a step takes all its CLOCKS_PER_STEP clocks, and the last one clears the count again. -/
theorem clocksPerStepClocksMakeOneStepDue : Obligations.ClocksPerStepClocksMakeOneStepDue := by
  intro s hclock hrun hzero hpos
  obtain ⟨n, hn⟩ := Nat.exists_eq_add_of_le' hpos
  have hall := execAll_clocks n hclock hrun (by omega)
  rw [hn, hall, ← hzero]
  rfl

end Sys2Proof.Machine
end

section
/-! The controller's tick (44_voice_controller.md R370, R371, R378 to R380, R393): the Running state, a tick between step
boundaries and one that crosses a boundary, under the internal and under the external clock. -/

namespace Sys2Proof.Machine

variable {s : State}

/-! ## The Running state (R370, R371) -/

theorem settled_ctl_of_enter (hwant : wantRunning s = true) (hrun : s.ctl.running = false) :
    (settled s).ctl = s.ctl.enter.countTick := by
  simp [settled, Controller.follow, hwant, hrun]

theorem settled_ctl_of_leave (hwant : wantRunning s = false) (hrun : s.ctl.running = true) :
    (settled s).ctl = s.ctl.leave.countTick := by
  simp [settled, Controller.follow, hwant, hrun]

theorem settled_ctl_of_same (h : s.ctl.running = wantRunning s) : (settled s).ctl = s.ctl.countTick := by
  simp [settled, Controller.follow, h]

/-- A tick that leaves the controller Idle clears the gate on the way out of Running, and else only counts. -/
theorem settled_of_idle (h : wantRunning s = false) :
    (settled s).ctl.stepIndex = s.ctl.stepIndex ∧ (settled s).ctl.stepTimer = s.ctl.stepTimer ∧
      (settled s).ctl.seqGate = if s.ctl.running then 0 else s.ctl.seqGate := by
  cases hrun : s.ctl.running with
  | false =>
    rw [settled_ctl_of_same (hrun.trans h.symm)]
    exact ⟨rfl, rfl, rfl⟩
  | true =>
    rw [settled_ctl_of_leave h hrun]
    exact ⟨rfl, rfl, rfl⟩

/-- A tick that leaves the controller Running restarts the step index, the timer and the tick count on entry. -/
theorem settled_of_running (h : wantRunning s = true) :
    (settled s).ctl.stepIndex = (if s.ctl.running then s.ctl.stepIndex else 0) ∧
      (settled s).ctl.stepTimer = (if s.ctl.running then s.ctl.stepTimer else 0) ∧
      (settled s).ctl.ticksSinceStep.toNat = if s.ctl.running then min 65535 (s.ctl.ticksSinceStep.toNat + 1) else 1 := by
  cases hrun : s.ctl.running with
  | false =>
    rw [settled_ctl_of_enter h hrun]
    exact ⟨rfl, rfl, rfl⟩
  | true =>
    rw [settled_ctl_of_same (hrun.trans h.symm)]
    refine ⟨rfl, rfl, ?_⟩
    exact Nat.mod_eq_of_lt (by omega)

/-! ## The controller's tick by whether it crosses a boundary (R378) -/

theorem ctlControl_of_no_boundary (h : stepBoundary s = false) : (ctlControl s).1 = countDown (settled s) := by
  simp [ctlControl, boundaryDue_settled, h]

theorem ctlControl_of_boundary (h : stepBoundary s = true) : (ctlControl s).1 = countDown (boundary (settled s)) := by
  simp [ctlControl, boundaryDue_settled, h]

theorem extClock_settled (s : State) : extClock (settled s) = extClock s := extClock_eq_of_patch (by simp) (by simp)

theorem extClock_boundary (s : State) : extClock (boundary s) = extClock s := extClock_eq_of_patch (by simp) (by simp)

/-- The external clock counts no timer down. -/
theorem countDown_of_external (h : extClock s = true) : countDown s = s := if_neg (by simp [h])

theorem countDown_of_idle (h : s.ctl.running = false) : countDown s = s := if_neg (by simp [h])

theorem countDown_of_internal (h : extClock s = false) (hrun : s.ctl.running = true) :
    countDown s = s.setCtl { s.ctl with stepTimer := s.ctl.stepTimer - 1 } := if_pos (by simp [h, hrun])

/-- A register that is not 0 counts down without a wrap. -/
theorem sub_one_toNat {w : Nat} {x : BitVec w} (h : x ≠ 0) : (x - 1).toNat + 1 = x.toNat := by
  have hpos : 0 < x.toNat := Nat.pos_of_ne_zero fun h0 => h (BitVec.eq_of_toNat_eq (by simp [h0]))
  have hone : (1 : BitVec w).toNat = 1 := Nat.mod_eq_of_lt (Nat.lt_of_le_of_lt hpos x.isLt)
  rw [BitVec.toNat_sub_of_le (by rw [BitVec.le_def, hone]; exact hpos), hone]
  omega

/-! ## A boundary (R379, R380, R393) -/

/-- A boundary's registers do not change what the step reads, so it plays the step of the state before. -/
theorem playStep_sources (s : State) :
    (playStep s).ctl.seqValue = BitVec.setWidth 8 (stepValue s (currentStep s)) <<< 4 ∧
      (playStep s).ctl.seqGate = (if stepOn s (currentStep s) then 255 else 0) ∧
      (playStep s).ctl.stepIndex = BitVec.ofNat 4 ((currentStep s + 1) % patternLen s) := by
  have hstep : currentStep (s.setCtl (s.ctl.takeBoundary (extClock s))) = currentStep s := by
    unfold Controller.takeBoundary
    split <;> rfl
  have hdo := doStep_ctl (s.setCtl (s.ctl.takeBoundary (extClock s)))
  rw [hstep] at hdo
  exact hdo

theorem playStep_ticksSinceStep (s : State) : (playStep s).ctl.ticksSinceStep = 0 := by
  simp only [playStep, doStep_frame, setCtl_ctl, Controller.takeBoundary]
  split <;> rfl

theorem playStep_external (h : extClock s = true) :
    (playStep s).ctl.extPending = s.ctl.extPending - 1 ∧
      (playStep s).ctl.extTps = BitVec.ofNat 16 (max 1 s.ctl.ticksSinceStep.toNat) := by
  simp [playStep, Controller.takeBoundary, h]

theorem patternLen_eq (s : State) : patternLen s = max 1 (min 16 (readPatch s (offSeq s.cfg + 5)).toNat) := by
  unfold patternLen seqLength
  omega

theorem patternLen_bounds (s : State) : 1 ≤ patternLen s ∧ patternLen s ≤ 16 := by
  unfold patternLen
  omega

theorem seqValue_toNat (x : BitVec 4) : (BitVec.setWidth 8 x <<< 4).toNat = x.toNat * 16 := by
  have := x.isLt
  simp only [BitVec.toNat_shiftLeft, BitVec.toNat_setWidth, Nat.shiftLeft_eq]
  omega

theorem stepIndex_toNat (s : State) (k : Nat) : (BitVec.ofNat 4 ((k + 1) % patternLen s)).toNat = (k + 1) % patternLen s := by
  obtain ⟨hpos, hle⟩ := patternLen_bounds s
  exact Nat.mod_eq_of_lt ((Nat.mod_lt _ hpos).trans_le hle)

theorem boundary_of_external (h : extClock s = true) : boundary s = playStep s := if_pos h

theorem boundary_of_internal (h : extClock s = false) :
    boundary s = loadTimer (stepDuration s (currentStep s)) (playStep s) := if_neg (by simp [h])

/-- A boundary writes the step's registers under either clock. -/
theorem boundary_step (s : State) :
    (boundary s).ctl.stepIndex = (playStep s).ctl.stepIndex ∧ (boundary s).ctl.ticksSinceStep = (playStep s).ctl.ticksSinceStep ∧
      (boundary s).ctl.seqValue = (playStep s).ctl.seqValue ∧ (boundary s).ctl.seqGate = (playStep s).ctl.seqGate := by
  cases h : extClock s with
  | false => simp [boundary_of_internal h]
  | true => simp [boundary_of_external h]

/-- Under either clock a tick that crosses a boundary plays `boundaryStep`, and the index moves on to the next step. -/
theorem ctlControl_step (h : stepBoundary s = true) :
    (ctlControl s).1.ctl.running = true ∧
      (ctlControl s).1.ctl.stepIndex.toNat =
        (boundaryStep s + 1) % max 1 (min 16 (readPatch s (offSeq s.cfg + 5)).toNat) ∧
      (ctlControl s).1.ctl.ticksSinceStep = 0 ∧
      (ctlControl s).1.ctl.seqValue.toNat = (stepValue s (boundaryStep s)).toNat * 16 ∧
      (ctlControl s).1.ctl.seqGate =
        if (rhythm s.cfg ((readPatch s (offSeq s.cfg + 3)).toNat % numRhythms s.cfg)).getLsbD (boundaryStep s)
        then 255 else 0 := by
  obtain ⟨hstep, -, -⟩ := settled_position h
  obtain ⟨hvalue, hgate, hindex⟩ := playStep_sources (settled s)
  obtain ⟨bindex, bticks, bvalue, bgate⟩ := boundary_step (settled s)
  have hcfg : (settled s).cfg = s.cfg := by simp
  have hpatch : (settled s).patch = s.patch := by simp
  rw [hstep, stepValue_eq_of_patch hcfg hpatch] at hvalue
  rw [hstep, stepOn_eq_of_patch hcfg hpatch] at hgate
  rw [hstep, patternLen_eq_of_patch hcfg hpatch] at hindex
  refine ⟨(ctlControl_running s).trans (wantRunning_of_boundary h), ?_, ?_, ?_, ?_⟩ <;>
    simp only [ctlControl_of_boundary h, countDown_frame]
  · rw [bindex, hindex, stepIndex_toNat, patternLen_eq]
  · rw [bticks, playStep_ticksSinceStep]
  · rw [bvalue, hvalue, seqValue_toNat]
  · rw [bgate, hgate]
    rfl

/-! ## The internal clock -/

theorem stepBoundary_of_internal (h : extClock s = false) :
    stepBoundary s = (decide (s.ctl.held ≠ []) && (!s.ctl.running || decide (s.ctl.stepTimer = 0))) :=
  if_neg (by simpa [extClock, seqTempo] using h)

theorem wantRunning_of_held (h : extClock s = false) (hheld : s.ctl.held ≠ []) : wantRunning s = true := by
  simp [wantRunning, h, hheld]

/-- A tick without held notes plays no step and counts no timer. -/
theorem ctlControl_of_internal_idle (h : extClock s = false) (hheld : s.ctl.held = []) : (ctlControl s).1 = settled s := by
  have hidle : (settled s).ctl.running = false := (settled_running s).trans (wantRunning_of_no_held h hheld)
  rw [ctlControl_of_no_boundary (by simp [stepBoundary_of_internal h, hheld]), countDown_of_idle hidle]

/-- A Running tick before its timer is out takes one tick off it. -/
theorem ctlControl_of_internal_between (h : extClock s = false) (hheld : s.ctl.held ≠ []) (hrun : s.ctl.running = true)
    (htimer : s.ctl.stepTimer ≠ 0) :
    (ctlControl s).1.ctl = { s.ctl.countTick with stepTimer := s.ctl.stepTimer - 1 } := by
  have hwant := wantRunning_of_held h hheld
  have hctl := settled_ctl_of_same (hrun.trans hwant.symm)
  have hb : stepBoundary s = false := by
    rw [stepBoundary_of_internal h, hrun, decide_eq_false htimer]
    simp
  rw [ctlControl_of_no_boundary hb,
    countDown_of_internal ((extClock_settled s).trans h) ((settled_running s).trans hwant), hctl]
  rfl

/-- Swing adds to no step more than it adds to an even one. -/
theorem stepDuration_le (s : State) (k : Nat) :
    stepDuration s k ≤ ticksPerStep s.cfg (seqTempo s) + ticksPerStep s.cfg (seqTempo s) * seqSwing s / 256 := by
  unfold stepDuration
  dsimp only
  split <;> omega

/-- Swing takes less than a step off an odd step, so its duration is at least a tick. -/
theorem stepDuration_pos (s : State) (k : Nat) : 1 ≤ stepDuration s k := by
  have hd : 1 ≤ ticksPerStep s.cfg (seqTempo s) := one_le_ticksPerStep _ _
  have hswing : seqSwing s ≤ 255 := Nat.le_of_lt_succ (readPatch s _).isLt
  have hoff : ticksPerStep s.cfg (seqTempo s) * seqSwing s ≤ ticksPerStep s.cfg (seqTempo s) * 255 :=
    Nat.mul_le_mul_left _ hswing
  unfold stepDuration
  dsimp only
  split <;> omega

/-- A boundary loads the duration of its step and counts one tick of it. -/
theorem ctlControl_internal_timer (h : extClock s = false) (hb : stepBoundary s = true)
    (hfit : stepDuration s (boundaryStep s) < 65536) :
    (ctlControl s).1.ctl.stepTimer.toNat + 1 = stepDuration s (boundaryStep s) := by
  have hclock : extClock (settled s) = false := (extClock_settled s).trans h
  have hrun : (boundary (settled s)).ctl.running = true := by
    simp [settled_running, wantRunning_of_boundary hb]
  have htimer : (boundary (settled s)).ctl.stepTimer = BitVec.ofNat 16 (stepDuration s (boundaryStep s)) := by
    rw [boundary_of_internal hclock, (settled_position hb).1, stepDuration_eq_of_patch (s := s) (by simp) (by simp)]
    exact if_pos hfit
  have hpos := stepDuration_pos s (boundaryStep s)
  rw [ctlControl_of_boundary hb, countDown_of_internal ((extClock_boundary _).trans hclock) hrun, setCtl_ctl, htimer]
  generalize stepDuration s (boundaryStep s) = d at *
  have hd : (BitVec.ofNat 16 d).toNat = d := Nat.mod_eq_of_lt hfit
  refine (sub_one_toNat fun h0 => ?_).trans hd
  rw [h0] at hd
  exact absurd hd (by simp; omega)

/-- CONTROL leaves the controller as its tick does, on a state that differs only in what the LFOs' advance writes. -/
theorem control_ctl (s : State) : (runSubSteps cvWrites (controlCore s)).ctl = (ctlControl (advanceLfos s)).1.ctl := by
  obtain ⟨-, -, -, hctl⟩ := control_registers s
  exact hctl.trans (controllerTick_ctl _)

/-- Settles O43: no note is held, the timer is running, or the tick is a boundary. -/
theorem internalClockStepBoundaries : Obligations.InternalClockStepBoundaries := by
  intro s h
  refine ⟨_, execControl_eq s, ?_⟩
  rw [control_ctl]
  have hu : extClock (advanceLfos s) = false := h
  refine ⟨fun hheld => ?_, fun hheld hrun htimer => ?_, fun hheld hdue => ?_⟩
  · obtain ⟨hindex, htimer, hgate⟩ := settled_of_idle (s := advanceLfos s) (wantRunning_of_no_held hu hheld)
    have hidle := (ctlControl_running (advanceLfos s)).trans (wantRunning_of_no_held hu hheld)
    rw [ctlControl_of_internal_idle hu hheld] at hidle ⊢
    exact ⟨hidle, hindex, htimer, hgate⟩
  · rw [ctlControl_of_internal_between (s := advanceLfos s) hu hheld hrun htimer]
    exact ⟨rfl, sub_one_toNat htimer, Nat.mod_eq_of_lt (by omega)⟩
  · have hb : stepBoundary (advanceLfos s) = true := by
      rw [stepBoundary_of_internal hu]
      obtain hrun | htimer := hdue
      · simp [hheld, hrun]
      · simp [hheld, htimer]
    obtain ⟨hrun, hindex, hticks, hvalue, hgate⟩ := ctlControl_step hb
    refine ⟨hrun, hindex, hticks, hvalue, hgate, fun hfit => ?_⟩
    exact ctlControl_internal_timer hu hb ((stepDuration_le _ _).trans_lt hfit)

/-! ## The external clock (R393, R397) -/

theorem stepBoundary_of_external (h : extClock s = true) :
    stepBoundary s = (s.ctl.extRun && decide (s.ctl.extPending ≠ 0)) :=
  if_pos (by simpa [extClock, seqTempo] using h)

theorem wantRunning_of_external (h : extClock s = true) : wantRunning s = s.ctl.extRun := if_pos h

/-- Between boundaries the external clock leaves the controller settled: no timer is counted. -/
theorem ctlControl_of_external_between (h : extClock s = true) (hb : stepBoundary s = false) : (ctlControl s).1 = settled s := by
  rw [ctlControl_of_no_boundary hb, countDown_of_external ((extClock_settled s).trans h)]

theorem ctlControl_of_external_boundary (h : extClock s = true) (hb : stepBoundary s = true) :
    (ctlControl s).1 = playStep (settled s) := by
  have hclock : extClock (settled s) = true := (extClock_settled s).trans h
  rw [ctlControl_of_boundary hb, countDown_of_external ((extClock_boundary _).trans hclock), boundary_of_external hclock]

/-- A boundary takes one pending step off, and estimates the tempo by the ticks since the last one. -/
theorem ctlControl_external_estimate (h : extClock s = true) (hb : stepBoundary s = true) (hpending : s.ctl.extPending ≠ 0) :
    (ctlControl s).1.ctl.extPending.toNat + 1 = s.ctl.extPending.toNat ∧
      (ctlControl s).1.ctl.extTps.toNat = if s.ctl.running then min 65535 (s.ctl.ticksSinceStep.toNat + 1) else 1 := by
  obtain ⟨-, -, hticks⟩ := settled_of_running (wantRunning_of_boundary hb)
  obtain ⟨hext, htps⟩ := playStep_external ((extClock_settled s).trans h)
  have hkeep : (settled s).ctl.extPending = s.ctl.extPending := by simp
  rw [ctlControl_of_external_boundary h hb, hext, hkeep, htps, hticks]
  refine ⟨sub_one_toNat hpending, ?_⟩
  split
  · refine (Nat.mod_eq_of_lt ?_).trans ?_ <;> omega
  · rfl

/-- Under the external clock only the entry into Running writes the timer. -/
theorem ctlControl_external_timer (h : extClock s = true) :
    (ctlControl s).1.ctl.stepTimer = if s.ctl.extRun = true ∧ s.ctl.running = false then 0 else s.ctl.stepTimer := by
  have htick : (ctlControl s).1.ctl.stepTimer = (settled s).ctl.stepTimer := by
    cases hb : stepBoundary s with
    | false => rw [ctlControl_of_external_between h hb]
    | true => simp [ctlControl_of_external_boundary h hb]
  have hwant := wantRunning_of_external h
  rw [htick]
  cases hrun : s.ctl.extRun with
  | false => simp [settled_of_idle (hwant.trans hrun)]
  | true =>
    rw [(settled_of_running (hwant.trans hrun)).2.1]
    cases s.ctl.running <;> simp

/-- Settles O44: the transport is stopped, running with no step pending, or the tick is a boundary. -/
theorem externalClockStepBoundaries : Obligations.ExternalClockStepBoundaries := by
  intro s h
  refine ⟨_, execControl_eq s, ?_⟩
  rw [control_ctl]
  have hu : extClock (advanceLfos s) = true := h
  have hwant : wantRunning (advanceLfos s) = s.ctl.extRun := wantRunning_of_external hu
  have hrunning := ctlControl_running (advanceLfos s)
  refine ⟨fun hstop => ?_, fun hrun hnone => ?_, fun hrun hpending => ?_, ctlControl_external_timer hu⟩
  · obtain ⟨hindex, -, hgate⟩ := settled_of_idle (hwant.trans hstop)
    have hb : stepBoundary (advanceLfos s) = false := by simp [stepBoundary_of_external hu, hstop]
    rw [ctlControl_of_external_between hu hb] at hrunning ⊢
    exact ⟨hrunning.trans (hwant.trans hstop), hindex, by simp, by simp, hgate⟩
  · obtain ⟨hindex, -, -⟩ := settled_of_running (hwant.trans hrun)
    have hb : stepBoundary (advanceLfos s) = false := by simp [stepBoundary_of_external hu, hnone]
    rw [ctlControl_of_external_between hu hb] at hrunning ⊢
    exact ⟨hrunning.trans (hwant.trans hrun), by simp [hnone], by simp, hindex⟩
  · have hb : stepBoundary (advanceLfos s) = true :=
      (stepBoundary_of_external hu).trans (Bool.and_eq_true_iff.mpr ⟨hrun, decide_eq_true hpending⟩)
    obtain ⟨hrun', hindex, hticks, hvalue, hgate⟩ := ctlControl_step hb
    obtain ⟨hext, htps⟩ := ctlControl_external_estimate hu hb hpending
    exact ⟨hrun', hext, hindex, hticks, htps, hvalue, hgate⟩

end Sys2Proof.Machine
end

section
/-! The arpeggiator (44_voice_controller.md R380, R381, R384, R385): the ascending order of the held notes, the traversals, and
the control tick that plays an element. -/

namespace Sys2Proof.Machine

variable {s t : State} {held : List HeldNote} {len pos : Nat}

/-! ## The ascending sequence -/

theorem sortedHeld_length (held : List HeldNote) : (sortedHeld held).length = held.length := (sortedHeld_perm held).length_eq

/-- A new note goes into its place. -/
theorem insertByNote_pairwise {h : HeldNote} (hsorted : held.Pairwise (fun a b => a.note.toNat < b.note.toNat))
    (hnew : h.note ∉ held.map HeldNote.note) :
    (insertByNote h held).Pairwise (fun a b => a.note.toNat < b.note.toNat) := by
  induction held with
  | nil => exact List.pairwise_singleton _ _
  | cons g rest ih =>
    obtain ⟨hg, hrest⟩ := List.pairwise_cons.mp hsorted
    rw [List.map_cons, List.mem_cons, not_or, ← BitVec.toNat_inj] at hnew
    obtain ⟨hne, hnew⟩ := hnew
    unfold insertByNote
    split
    · next hle =>
      have hlt : h.note.toNat < g.note.toNat := lt_of_le_of_ne hle hne
      refine List.pairwise_cons.mpr ⟨fun x hx => ?_, hsorted⟩
      obtain rfl | hx := List.mem_cons.mp hx
      · exact hlt
      · exact hlt.trans (hg x hx)
    · next hgt =>
      refine List.pairwise_cons.mpr ⟨fun x hx => ?_, ih hrest hnew⟩
      obtain rfl | hx := List.mem_cons.mp ((insertByNote_perm h rest).mem_iff.mp hx)
      · exact Nat.lt_of_not_le hgt
      · exact hg x hx

theorem sortedHeld_pairwise (hnodup : (held.map HeldNote.note).Nodup) :
    (sortedHeld held).Pairwise (fun a b => a.note.toNat < b.note.toNat) := by
  induction held with
  | nil => exact List.Pairwise.nil
  | cons h rest ih =>
    obtain ⟨hnew, hrest⟩ := List.nodup_cons.mp hnodup
    exact insertByNote_pairwise (ih hrest) (by rwa [((sortedHeld_perm rest).map _).mem_iff])

/-- The held note of an element, transposed by whole octaves; no note of the traversal wraps. -/
theorem arpElement_eq {j : Nat} (hj : j < held.length * 4) :
    ∃ h : HeldNote, (sortedHeld held)[j % (sortedHeld held).length]? = some h ∧
      (arpElement held j).1.toNat = h.note.toNat + 12 * (j / (sortedHeld held).length) ∧ (arpElement held j).2 = h.velocity := by
  have hpos : 0 < held.length := Nat.pos_of_mul_pos_right (Nat.zero_lt_of_lt hj)
  have hoct : j / held.length < 4 := Nat.div_lt_of_lt_mul hj
  have hmod : j % held.length < (sortedHeld held).length := (Nat.mod_lt j hpos).trans_eq (sortedHeld_length held).symm
  rw [sortedHeld_length]
  refine ⟨(sortedHeld held)[j % held.length], List.getElem?_eq_getElem hmod, ?_, ?_⟩
  · have hnote := ((sortedHeld held)[j % held.length]).note.isLt
    simp only [arpElement, List.getD_eq_getElem _ _ hmod, BitVec.toNat_ofNat]
    omega
  · simp only [arpElement, List.getD_eq_getElem _ _ hmod]

/-! ## The traversals -/

/-- UP moves its position on from the element it plays. -/
theorem arpIndex_up (len pos : Nat) (r : Half) : arpIndex .up len pos r = (pos % len, (pos + 1) % len, r) := by
  simp [arpIndex]

/-- DOWN plays the same positions from the top of the sequence. -/
theorem arpIndex_down (len pos : Nat) (r : Half) :
    arpIndex .down len pos r = (len - 1 - pos % len, (pos + 1) % len, r) := by
  simp [arpIndex]

/-- Every position fits its register: the sequence has at most 16 held notes in 4 octaves. -/
theorem arpIndex_pos_lt (m : ArpMode) (r : Half) (hlen : 0 < len) (hmax : len ≤ 64) (hpos : pos < 65536) :
    (arpIndex m len pos r).2.1 < 65536 := by
  have hmod (x : Nat) : x % len < 65536 := (Nat.mod_lt x hlen).trans_le (by omega)
  cases m with
  | off => exact hmod _
  | up => exact hmod _
  | down => exact hmod _
  | upDown => exact (Nat.mod_lt _ (by omega)).trans_le (by omega : max 1 (2 * len - 2) ≤ 65536)
  | random => exact hpos

/-! ## The tick that plays an element -/

/-- What the arpeggiator of a tick draws: the element, the next position and the generator, from position 0 on entering
Running. -/
def arpDraw (s : State) : Nat × Nat × Half :=
  arpIndex (arpMode s) (arpLength s) (if s.ctl.running then s.ctl.arpPos.toNat else 0) s.eng.rng

theorem octaveSpan_eq_of_patch (hc : t.cfg = s.cfg) (hp : t.patch = s.patch) : octaveSpan t = octaveSpan s := by
  unfold octaveSpan seqOctaves
  rw [readPatch_eq_of_patch hc hp, hc]

/-- The voice of a trigger depends on the patch and on the voice before it only. -/
theorem voiceTrigger_voice_congr (hc : t.cfg = s.cfg) (hp : t.patch = s.patch) (hv : t.voice = s.voice) (n : Byte)
    (vel : BitVec 7) (legato : Bool) : (voiceTrigger t n vel legato).voice = (voiceTrigger s n vel legato).voice := by
  simp only [voiceTrigger_eq_startGlide, setVoice_voice, triggeredVoice, notePitch, readPatch_eq_of_patch hc hp, hc, hv]

theorem ctlControl_arp (h : arpNoteDue s = true) :
    (ctlControl s).1.voice =
        (voiceTrigger s (arpElement s.ctl.held (arpDraw s).1).1 (arpElement s.ctl.held (arpDraw s).1).2 false).voice ∧
      (ctlControl s).1.ctl.arpPos = BitVec.ofNat 16 (arpDraw s).2.1 := by
  obtain ⟨w, hc, hp, hheld, hv, hrng, hpos, hvoice, -, harpPos⟩ := ctlControl_of_note h
  have hdraw : arpIndex (arpMode w) (arpLength w) w.ctl.arpPos.toNat w.eng.rng = arpDraw s := by
    rw [arpDraw, arpLength, arpMode_eq_of_patch hc hp, octaveSpan_eq_of_patch hc hp, hheld, hpos, hrng]
    rfl
  rw [hvoice, harpPos, ← hdraw, ← hheld]
  exact ⟨voiceTrigger_voice_congr hc hp hv _ _ _, rfl⟩

theorem arpNoteDue_held (h : arpNoteDue s = true) : s.ctl.held ≠ [] := fun hnone => by simp [arpNoteDue_of_no_held hnone] at h

/-- The traversal plays an element of the sequence, and its next position fits the register. -/
theorem arpDraw_bounds (hheld : s.heldOk) (h : arpNoteDue s = true) :
    (arpDraw s).1 < arpLength s ∧ (arpDraw s).2.1 < 65536 := by
  obtain ⟨hcap, -⟩ := hheld
  obtain ⟨hoct, hoct4⟩ := octaveSpan_pos_le s
  have hlen : 0 < arpLength s := Nat.mul_pos (List.length_pos_iff.mpr (arpNoteDue_held h)) hoct
  have hmax : arpLength s ≤ 64 := Nat.mul_le_mul hcap hoct4
  have hpos : (if s.ctl.running then s.ctl.arpPos.toNat else 0) < 65536 := by
    split
    · exact s.ctl.arpPos.isLt
    · decide
  exact ⟨arpIndex_lt _ _ _ _ hlen, arpIndex_pos_lt _ _ hlen hmax hpos⟩

theorem controllerTick_voice (s : State) : (controllerTick s).voice = (ctlControl s).1.voice := by
  simp only [controllerTick]
  split <;> simp

theorem control_voice (s : State) :
    (runSubSteps cvWrites (controlCore s)).voice = (voiceControl (tickedEngine s)).voice := by
  rw [cvWrites_eq, controlCore_eq]

/-- A restarted voice is live after its tick, whatever stage its envelopes reach (R316). -/
theorem renderEnvelopes_dead_of_retriggered {v : Voice} (h : v.retriggered = true) : v.renderEnvelopes.dead = false := by
  simp [renderEnvelopes_dead_eq, h]

/-- On a tick that plays an arpeggio note, CONTROL renders and glides the voice that the trigger leaves. -/
theorem control_voice_of_arp (h : arpNoteDue s = true) :
    let e := arpElement s.ctl.held (arpDraw (advanceLfos s)).1
    let v := (voiceTrigger s e.1 e.2 false).voice
    let t := runSubSteps cvWrites (controlCore s)
    t.voice.note = e.1 ∧ t.voice.velocity = e.2 ∧ t.voice.gate = true ∧ t.voice.dead = false ∧
      t.voice.env1 = v.env1.render ∧ t.voice.env2 = v.env2.render ∧ t.voice.target = v.target ∧
      t.voice.pitch = v.glide.pitch ∧ t.voice.glideInc = v.glide.glideInc := by
  intro e v t
  obtain ⟨hplayed, -⟩ := ctlControl_arp (s := advanceLfos s) h
  have hticked : (tickedEngine s).voice = v :=
    (tickedEngine_voice s).trans ((controllerTick_voice _).trans (hplayed.trans (voiceTrigger_voice_congr rfl rfl rfl _ _ _)))
  have hvoice : t.voice = _ := (control_voice s).trans (voiceControl_voice _)
  rw [hticked] at hvoice
  have htrigger : v = _ := voiceTrigger_voice s e.1 e.2 false
  have hretriggered : v.retriggered = true := congrArg Voice.retriggered htrigger
  rw [hvoice]
  exact ⟨congrArg Voice.note htrigger, congrArg Voice.velocity htrigger, congrArg Voice.gate htrigger,
    renderEnvelopes_dead_of_retriggered hretriggered, rfl, rfl, rfl, rfl, rfl⟩

theorem control_arpPos_of_arp (hheld : s.heldOk) (h : arpNoteDue s = true) :
    (runSubSteps cvWrites (controlCore s)).ctl.arpPos.toNat = (arpDraw (advanceLfos s)).2.1 := by
  obtain ⟨-, hpos⟩ := ctlControl_arp (s := advanceLfos s) h
  obtain ⟨-, hfit⟩ := arpDraw_bounds (s := advanceLfos s) hheld h
  rw [control_ctl, hpos]
  exact Nat.mod_eq_of_lt hfit

/-- Settles O45: the tick triggers the voice with the element drawn, whose index and next position are those of the mode. -/
theorem arpeggiatorPlaysTheTraversal : Obligations.ArpeggiatorPlaysTheTraversal := by
  intro s hheld hdue
  obtain ⟨hnote, hvelocity, hgate, hdead, henv1, henv2, htarget, hpitch, hinc⟩ := control_voice_of_arp hdue
  have hpos := control_arpPos_of_arp hheld hdue
  obtain ⟨hj, -⟩ := arpDraw_bounds (s := advanceLfos s) hheld hdue
  obtain ⟨-, hoct4⟩ := octaveSpan_pos_le s
  obtain ⟨h, hget, hnumber, hvel⟩ := arpElement_eq (hj.trans_le (Nat.mul_le_mul_left _ hoct4))
  have hlen : (sortedHeld s.ctl.held).length = s.ctl.held.length := sortedHeld_length _
  have hdraw : arpDraw (advanceLfos s) = arpIndex (arpMode s) ((sortedHeld s.ctl.held).length * octaveSpan s)
      (if s.ctl.running then s.ctl.arpPos.toNat else 0) (advanceLfos s).eng.rng := by
    rw [hlen]
    rfl
  refine ⟨_, sortedHeld s.ctl.held, (arpDraw (advanceLfos s)).1, h, execControl_eq s, sortedHeld_perm _,
    sortedHeld_pairwise hheld.2, hj.trans_eq (congrArg (· * octaveSpan s) hlen.symm), hget,
    (congrArg BitVec.toNat hnote).trans hnumber, hvelocity.trans hvel, hgate, hdead, ?_, ?_⟩
  · intro u
    have hu : u = voiceTrigger s _ _ false := congrArg₂ (voiceTrigger s · · false) hnote hvel.symm
    rw [hu]
    exact ⟨henv1, henv2, htarget, hpitch, hinc⟩
  · intro len pos drawn
    rw [hpos, hdraw]
    refine ⟨fun hm => ?_, fun hm => ?_, fun hm => ?_, fun hm => ?_⟩
    · rw [hm, arpIndex_up]
      exact ⟨rfl, rfl⟩
    · rw [hm, arpIndex_down]
      exact ⟨rfl, rfl⟩
    · rw [hm]
      exact ⟨rfl, rfl⟩
    · rw [hm]
      exact ⟨congrArg (· % len) (rngOut_toNat drawn), rfl⟩

end Sys2Proof.Machine
end

section
/-! The channel filter and the commands behind it that act on engine registers or parameters (45_engine_commands.md R421,
R427, R428, R430, R433 to R435, R439): the filter in numbers, CONTROL_CHANGE by its controller, and the NRPN sequence. -/

namespace Sys2Proof.Machine

variable {s : State} {ch : BitVec 4}

/-! ## The channel filter (R421) -/

theorem accept_iff (s : State) (ch : BitVec 4) :
    accept s ch = true ↔ s.eng.omni = true ∨ ch.toNat = (readPatch s 30).toNat % 16 := by
  rw [accept, Bool.or_eq_true, decide_eq_true_iff, ← BitVec.toNat_inj, lowNibble_toNat]

theorem onChannel_of_not_accept (h : accept s ch = false) (f : State → State) : onChannel ch f s = s :=
  if_neg (Bool.not_eq_true _ ▸ h)

/-- Every command with a channel operand runs behind the filter. -/
theorem exec_eq_onChannel {i : Instr} (h : channelOf i = some ch) :
    ∃ f : State → State, ∀ s, exec i s = .next (onChannel ch f s) := by
  cases i <;> cases h
  case noteOn | noteOff | controlChange | pitchBend | allSoundOff | allNotesOff | resetAllControllers | omniModeOn
      | omniModeOff =>
    exact ⟨_, fun _ => rfl⟩

/-- Settles O22: the nine commands are each a body behind the filter. -/
theorem unacceptedChannelCommandsChangeNothing : Obligations.UnacceptedChannelCommandsChangeNothing := by
  refine ⟨accept_iff, fun i ch s hch hrefused => ?_⟩
  obtain ⟨f, hexec⟩ := exec_eq_onChannel hch
  rw [hexec, onChannel_of_not_accept hrefused]

/-! ## Engine registers (R430, R433 to R435, R439) -/

theorem Engine.setCv_of_le {n : Nat} (h : 4 ≤ n) (e : Engine) (val : Byte) : e.setCv n val = e := by
  obtain ⟨m, rfl⟩ := Nat.exists_eq_add_of_le' h
  rfl

/-- Settles O25: an accepted channel command is its body, and an input number of 4 or more names no input. -/
theorem engineRegisterCommands : Obligations.EngineRegisterCommands := by
  refine fun s => ⟨fun ch h => ?_, fun _ => rfl, fun _ => rfl, fun _ => rfl, fun _ => rfl, fun n val hn => ?_⟩
  · have hbody : ∀ f, (Host.Outcome.next (onChannel ch f s) : Host.Outcome State Fault Refusal) = .next (f s) := fun f =>
      congrArg _ (onChannel_of_accept h f)
    exact ⟨fun _ => hbody _, hbody _, hbody _, hbody _⟩
  · exact congrArg (fun e => Host.Outcome.next (s.setEng e)) (s.eng.setCv_of_le hn val)

/-! ## CONTROL_CHANGE (R427) -/

theorem exec_controlChange_of_accept (h : accept s ch = true) (k v : BitVec 7) :
    exec (.controlChange ch k v) s = .next (controlChangeBody k v s) := congrArg _ (onChannel_of_accept h _)

theorem toNat_append_seven (hi lo : BitVec 7) : (hi ++ lo).toNat = hi.toNat * 128 + lo.toNat := by
  rw [BitVec.toNat_append, ← Nat.shiftLeft_add_eq_or_of_lt lo.isLt, Nat.shiftLeft_eq]

theorem highSeven_toNat (n : BitVec 14) : (n.extractLsb' 7 7).toNat = n.toNat / 128 := by
  have := n.isLt
  simp only [BitVec.extractLsb'_toNat, Nat.shiftRight_eq_div_pow]
  omega

theorem lowSeven_toNat (n : BitVec 14) : (n.extractLsb' 0 7).toNat = n.toNat % 128 := by
  simp [BitVec.extractLsb'_toNat]

/-- A controller that R427 maps to nothing changes nothing. -/
theorem controlChangeBody_of_unmapped {k : BitVec 7} (hk : k ∉ [1, 5, 6, 71, 72, 73, 74, 98, 99]) (v : BitVec 7) :
    controlChangeBody k v s = s := by
  have hne : k.toNat ∉ ([1, 5, 6, 71, 72, 73, 74, 98, 99] : List (BitVec 7)).map BitVec.toNat := fun hmem =>
    hk ((List.mem_map_of_injective fun _ _ => BitVec.eq_of_toNat_eq).mp hmem)
  unfold controlChangeBody
  split
  case h_10 => rfl
  all_goals next hmapped =>
    rw [hmapped] at hne
    exact absurd (by decide) hne

theorem nrpnIndex_setWidth_toNat (n : BitVec 14) : (n.setWidth 16).toNat = n.toNat :=
  BitVec.toNat_setWidth_of_le (by decide)

/-- Settles O23: an accepted command is its body, which for a mapped controller is `set_parameter` or one register write. -/
theorem controlChangeMapsControllers : Obligations.ControlChangeMapsControllers := by
  intro s ch v haccept b e
  have he : e.toNat = offEnv s.cfg.ccEnvTarget ∧ (e + 3).toNat = offEnv s.cfg.ccEnvTarget + 3 := by
    cases h : s.cfg.ccEnvTarget <;> simp [e, h, offEnv]
  obtain ⟨hattack, hrelease⟩ := he
  have hset : ∀ (idx : Half) (k : BitVec 7), controlChangeBody k v s = setParam s idx.toNat b →
      exec (.controlChange ch k v) s = exec (.setParameter idx b) s := fun idx k h => by
    rw [exec_controlChange_of_accept haccept, h]
    rfl
  refine ⟨exec_controlChange_of_accept haccept 1 v, hset 29 5 rfl, hset _ 6 ?_, hset 12 71 rfl, hset (e + 3) 72 ?_,
    hset e 73 ?_, hset 11 74 rfl, ⟨_, exec_controlChange_of_accept haccept 98 v, ?_⟩,
    ⟨_, exec_controlChange_of_accept haccept 99 v, ?_⟩, fun k hk => ?_⟩
  · rw [nrpnIndex_setWidth_toNat]
    rfl
  · rw [hrelease]
    rfl
  · rw [hattack]
    rfl
  · rw [toNat_append_seven, highSeven_toNat]
  · rw [toNat_append_seven, lowSeven_toNat]
  · rw [exec_controlChange_of_accept haccept, controlChangeBody_of_unmapped hk]

/-! ## The NRPN sequence (R428) -/

/-- The state with `nrpn_index` replaced. -/
def State.setNrpn (s : State) (idx : BitVec 14) : State := s.setEng { s.eng with nrpnIndex := idx }

theorem controlChangeBody_nrpnHigh (v : BitVec 7) (s : State) :
    controlChangeBody 99 v s = s.setNrpn (v ++ s.eng.nrpnIndex.extractLsb' 0 7) := rfl

theorem controlChangeBody_nrpnLow (v : BitVec 7) (s : State) :
    controlChangeBody 98 v s = s.setNrpn (s.eng.nrpnIndex.extractLsb' 7 7 ++ v) := rfl

theorem controlChangeBody_dataEntry (v : BitVec 7) (s : State) :
    controlChangeBody 6 v s = setParam s s.eng.nrpnIndex.toNat (ccByte v) := rfl

theorem append_sevens (idx : BitVec 14) : idx.extractLsb' 7 7 ++ idx.extractLsb' 0 7 = idx :=
  (BitVec.extractLsb'_append_extractLsb'_eq_extractLsb' rfl).trans BitVec.extractLsb'_eq_self

/-- Both halves of the index are the sequence's own, whatever the index was before. -/
theorem controlChangeBody_nrpnHalves (s : State) (idx : BitVec 14) :
    controlChangeBody 98 (idx.extractLsb' 0 7) (controlChangeBody 99 (idx.extractLsb' 7 7) s) = s.setNrpn idx := by
  have hhigh : (idx.extractLsb' 7 7 ++ s.eng.nrpnIndex.extractLsb' 0 7).extractLsb' 7 7 = idx.extractLsb' 7 7 :=
    BitVec.extractLsb'_append_eq_left
  rw [controlChangeBody_nrpnHigh, controlChangeBody_nrpnLow]
  exact congrArg s.setNrpn ((congrArg (· ++ idx.extractLsb' 0 7) hhigh).trans (append_sevens idx))

theorem execAll_cons_of_next {i : Instr} {t : State} (h : exec i s = .next t) (is : List Instr) :
    execAll (i :: is) s = execAll is t := by
  rw [execAll, h]

theorem execAll_nrpnCommands (h : accept s ch = true) (idx : BitVec 14) (val : BitVec 7) :
    execAll (nrpnCommands ch idx val) s = .next (setParam (s.setNrpn idx) idx.toNat (ccByte val)) := by
  have hhigh : accept (controlChangeBody 99 (idx.extractLsb' 7 7) s) ch = true := h
  have hidx : accept (s.setNrpn idx) ch = true := h
  rw [nrpnCommands, execAll_cons_of_next (exec_controlChange_of_accept h _ _),
    execAll_cons_of_next (exec_controlChange_of_accept hhigh _ _), controlChangeBody_nrpnHalves,
    execAll_cons_of_next (exec_controlChange_of_accept hidx _ _), controlChangeBody_dataEntry]
  rfl

theorem setParam_eng (s : State) (idx : Nat) (val : Byte) : (setParam s idx val).eng = s.eng := by simp

theorem setParam_cfg (s : State) (idx : Nat) (val : Byte) : (setParam s idx val).cfg = s.cfg := by simp

theorem readPatch_setParam (h : s.storesOk) (idx : Nat) (val : Byte) (a : Nat) :
    readPatch (setParam s idx val) a = if a = idx ∧ idx < patchSize s.cfg then val else readPatch s a := by
  by_cases hlt : idx < patchSize s.cfg
  · rw [setParam_of_lt hlt, readPatch_recompute, readPatch_writePatch h]
    simp only [hlt, and_true]
  · rw [setParam_of_le (Nat.not_lt.mp hlt), if_neg fun hand => hlt hand.2]

theorem State.storesOk.setParam (h : s.storesOk) (idx : Nat) (val : Byte) : (setParam s idx val).storesOk := by
  obtain ⟨hpatch, hrx⟩ := h
  refine ⟨?_, by simpa using hrx⟩
  simp only [setParam_patch, setParam_frame]
  split
  · next hlt => exact Memory.wf_write hpatch hlt
  · exact hpatch

/-- Settles O24: the sequence is `set_parameter` of its index, which keeps the index for the next data entry. -/
theorem nrpnWritesTheAddressedByte : Obligations.NrpnWritesTheAddressedByte := by
  intro s ch idx val val' haccept hs
  have hstores : (s.setNrpn idx).storesOk := hs
  obtain ⟨t, ht⟩ : ∃ t, setParam (s.setNrpn idx) idx.toNat (ccByte val) = t := ⟨_, rfl⟩
  have heng : t.eng = { s.eng with nrpnIndex := idx } := by
    rw [← ht, setParam_eng]
    rfl
  have hcfg : t.cfg = s.cfg := by
    rw [← ht, setParam_cfg]
    rfl
  refine ⟨t, by rw [execAll_nrpnCommands haccept, ht], heng, ?_, fun a => ?_, fun hagain =>
    ⟨_, exec_controlChange_of_accept hagain 6 val', ?_, fun a => ?_⟩⟩
  · rw [heng, ← ht, ← nrpnIndex_setWidth_toNat]
    rfl
  · rw [← ht]
    exact readPatch_setParam hstores idx.toNat (ccByte val) a
  · exact setParam_eng t t.eng.nrpnIndex.toNat (ccByte val')
  · have hok : t.storesOk := ht ▸ hstores.setParam idx.toNat (ccByte val)
    rw [controlChangeBody_dataEntry, readPatch_setParam hok, heng, hcfg]
    rfl

end Sys2Proof.Machine
end

section
/-! `recompute_all()` as the rows of R442 over every index of the patch (45_engine_commands.md R443). -/

namespace Sys2Proof.Machine

variable {f : State → State} {idx a : Nat}

/-! ## The row of an index (R442) -/

theorem recompute_of_no_row (h0 : idx ≠ 0) (h4 : idx ≠ 4) (h : idx < 15 ∨ 26 < idx) (s : State) : recompute s idx = s := by
  rw [recompute, if_neg h0, if_neg h4, if_neg (by omega), if_neg (by omega), if_neg (by omega)]

theorem recompute_of_env (h : 15 ≤ idx ∧ idx ≤ 22) (s : State) : recompute s idx = recomputeEnvs s := by
  rw [recompute, if_neg (by omega), if_neg (by omega), if_pos h]

theorem recompute_of_lfo1 (h : 23 ≤ idx ∧ idx ≤ 24) (s : State) : recompute s idx = updateLfo s .lfo1 := by
  rw [recompute, if_neg (by omega), if_neg (by omega), if_neg (by omega), if_pos h]

theorem recompute_of_lfo2 (h : 25 ≤ idx ∧ idx ≤ 26) (s : State) : recompute s idx = updateLfo s .lfo2 := by
  rw [recompute, if_neg (by omega), if_neg (by omega), if_neg (by omega), if_neg (by omega), if_pos h]

/-! ## Runs of indices in one row -/

/-- A run of indices of one row recomputes it once, for recomputing it again changes nothing. -/
theorem foldl_recompute_of_row (n : Nat) (hrow : ∀ i, a ≤ i ∧ i ≤ a + n → ∀ t, recompute t i = f t) (s : State) :
    (List.range' a (n + 1)).foldl recompute s = f s := by
  have hhead : ∀ t, recompute t a = f t := hrow a (by omega)
  induction n with
  | zero => exact hhead s
  | succ n ih =>
    rw [List.range'_1_concat, List.foldl_append, ih fun i hi => hrow i ⟨hi.1, by omega⟩]
    calc recompute (f s) (a + (n + 1))
      _ = f (f s) := hrow _ ⟨by omega, le_refl _⟩ (f s)
      _ = recompute (recompute s a) a := by rw [hhead, hhead]
      _ = f s := (recompute_recompute s a).trans (hhead s)

theorem foldl_recompute_of_no_row (n : Nat) (h : ∀ i, a ≤ i ∧ i ≤ a + n → i ≠ 0 ∧ i ≠ 4 ∧ (i < 15 ∨ 26 < i))
    (s : State) :
    (List.range' a (n + 1)).foldl recompute s = s :=
  foldl_recompute_of_row (f := id) n
    (fun i hi => let ⟨h0, h4, hout⟩ := h i hi; recompute_of_no_row h0 h4 hout) s

/-- The indices of a patch, cut where the rows of R442 begin and end. -/
theorem range_eq_rows (n : Nat) :
    List.range (27 + n) = List.range' 0 1 ++ List.range' 1 3 ++ List.range' 4 1 ++ List.range' 5 10 ++ List.range' 15 8 ++
      List.range' 23 2 ++ List.range' 25 2 ++ List.range' 27 n := by
  have hrows : List.range' 0 27 = List.range' 0 1 ++ List.range' 1 3 ++ List.range' 4 1 ++ List.range' 5 10 ++
      List.range' 15 8 ++ List.range' 23 2 ++ List.range' 25 2 := by decide
  rw [List.range_eq_range', ← List.range'_append_1, Nat.zero_add, hrows]

theorem foldl_recompute_eq_recomputeAll (s : State) (n : Nat) :
    (List.range (27 + (n + 1))).foldl recompute s = recomputeAll s := by
  simp only [range_eq_rows, List.foldl_append]
  rw [foldl_recompute_of_row (f := setupOsc1) (a := 0) 0 (fun i hi t => if_pos (by omega)),
    foldl_recompute_of_no_row (a := 1) 2 (by omega),
    foldl_recompute_of_row (f := setupOsc2) (a := 4) 0 (fun i hi t => (if_neg (by omega)).trans (if_pos (by omega))),
    foldl_recompute_of_no_row (a := 5) 9 (by omega),
    foldl_recompute_of_row (f := recomputeEnvs) (a := 15) 7 (fun i hi => recompute_of_env hi),
    foldl_recompute_of_row (f := fun t => updateLfo t .lfo1) (a := 23) 1 (fun i hi => recompute_of_lfo1 hi),
    foldl_recompute_of_row (f := fun t => updateLfo t .lfo2) (a := 25) 1 (fun i hi => recompute_of_lfo2 hi),
    foldl_recompute_of_no_row (a := 27) n (by omega), recomputeAll]

/-! ## The LFOs (R238) -/

theorem updateLfo_lfo_of_patch {s t : State} {i : LfoId} (hc : t.cfg = s.cfg) (hp : t.patch = s.patch) (hk : t.ctl = s.ctl)
    (hl : t.lfo i = s.lfo i) : (updateLfo t i).lfo i = (s.lfo i).update (readPatch s (offLfoWave i)) (lfoIncrement s i) := by
  rw [updateLfo, setLfo_lfo, hl, readPatch_eq_of_patch hc hp, lfoIncrement_eq_of_patch hc hp hk]

theorem updateLfo_lfo_of_ne {i j : LfoId} (h : i ≠ j) (s : State) : (updateLfo s j).lfo i = s.lfo i := by
  cases i with
  | lfo1 => cases j with
    | lfo1 => exact absurd rfl h
    | lfo2 => rfl
  | lfo2 => cases j with
    | lfo1 => rfl
    | lfo2 => exact absurd rfl h

theorem recomputeAll_lfo (s : State) (i : LfoId) :
    (recomputeAll s).lfo i = (s.lfo i).update (readPatch s (offLfoWave i)) (lfoIncrement s i) := by
  have hkeep : ∀ j, (recomputeEnvs (setupOsc2 (setupOsc1 s))).lfo j = s.lfo j := fun j => by cases j <;> rfl
  unfold recomputeAll
  cases i with
  | lfo1 =>
    rw [updateLfo_lfo_of_ne (by decide)]
    exact updateLfo_lfo_of_patch (by simp) (by simp) (by simp) (hkeep .lfo1)
  | lfo2 =>
    exact updateLfo_lfo_of_patch (by simp) (by simp) (by simp) ((updateLfo_lfo_of_ne (by decide) _).trans (hkeep .lfo2))

/-- Settles O20: each row's run of indices is its recomputation once, and the patch goes on past the last row. -/
theorem recomputeAllIsEveryRow : Obligations.RecomputeAllIsEveryRow := by
  intro s
  have hsize : patchSize s.cfg = 27 + (2 * s.cfg.numModSlots + 25 + 1) := by
    unfold patchSize offName offSeq
    omega
  refine ⟨?_, cachesCoherent_recomputeAll s, recomputeAll_lfo s .lfo1, recomputeAll_lfo s .lfo2⟩
  rw [hsize, foldl_recompute_eq_recomputeAll]

end Sys2Proof.Machine
end

section
/-! RENDER_BLOCK beside CONTROL and AUDIO commands (45_engine_commands.md R460, 47_buffering.md R524): with no consumer step
inside them, a sample pushed and a sample answered differ in the ring buffer and the response register only. -/

namespace Sys2Proof.Machine

variable {s : State}

/-! ## Sub-steps with an empty schedule -/

theorem preempt_of_sched_nil (h : s.sched = []) : preempt s = s := by
  rw [preempt_of_hostIsNext s (.inl h), h, List.tail_nil, ← h]

theorem runSubSteps_cons_of_sched_nil (h : s.sched = []) (k : SubStep) (ks : List SubStep) :
    runSubSteps (k :: ks) s = runSubSteps ks (runSubStep k s) := by
  rw [runSubSteps, preempt_of_sched_nil h]

theorem runSubStep_ring {k : SubStep} (h : k ≠ .sample) (s : State) : (runSubStep k s).out.ring = s.out.ring := by
  cases k with
  | core => simp [runSubStep]
  | cutoff | resonance | amplitude => rfl
  | sample => exact absurd rfl h

/-- CONTROL's sub-steps by themselves keep the ring buffer and the empty schedule. -/
theorem runSubSteps_ring_of_sched_nil {ks : List SubStep} (hk : .sample ∉ ks) (h : s.sched = []) :
    (runSubSteps ks s).out.ring = s.out.ring ∧ (runSubSteps ks s).sched = [] := by
  induction ks generalizing s with
  | nil => exact ⟨rfl, h⟩
  | cons k ks ih =>
    rw [List.mem_cons, not_or] at hk
    obtain ⟨hring, hidle⟩ := ih hk.2 ((runSubStep_sched k s).trans h)
    rw [runSubSteps_cons_of_sched_nil h, hring]
    exact ⟨runSubStep_ring (Ne.symm hk.1) s, hidle⟩

/-! ## An audio tick beside the ring buffer and the response register -/

theorem noiseUpdate_setOut (s : State) (o : Output) : noiseUpdate (s.setOut o) = (noiseUpdate s).setOut o := by
  rcases Nat.lt_or_ge (s.eng.noiseCtr + 1) s.cfg.noiseDecim with h | h
  · rw [noiseUpdate_of_lt h, noiseUpdate_of_lt (s := s.setOut o) h]
    rfl
  · rw [noiseUpdate_of_le h, noiseUpdate_of_le (s := s.setOut o) h]
    rfl

theorem voiceAudio_setOut (s : State) (o : Output) :
    voiceAudio (s.setOut o) = ((voiceAudio s).1.setOut o, (voiceAudio s).2) := by
  cases h : s.voice.dead with
  | false =>
    rw [voiceAudio_of_live h, voiceAudio_of_live (s := s.setOut o) h]
    rfl
  | true => rw [voiceAudio_of_dead h, voiceAudio_of_dead (s := s.setOut o) h]

theorem audioStep_setOut (s : State) (o : Output) : audioStep (s.setOut o) = ((audioStep s).1.setOut o, (audioStep s).2) := by
  rw [audioStep, noiseUpdate_setOut, voiceAudio_setOut, audioStep]

/-- The state as a block leaves it: a response register and a ring buffer that its audio ticks do not read. -/
def State.withBlock (s : State) (resp : Byte) (ring : List Byte) : State := (s.respond resp).setOut { s.out with ring := ring }

theorem withBlock_self (s : State) : s.withBlock s.eng.resp s.out.ring = s := rfl

theorem respond_withBlock (s : State) (x r : Byte) (q : List Byte) : (s.respond x).withBlock r q = s.withBlock r q := rfl

/-- A pushed sample is the answer of an AUDIO command, appended to the ring buffer. -/
theorem runSubStep_sample_withBlock (s : State) (r : Byte) (q : List Byte) :
    runSubStep .sample (s.withBlock r q) = (audioStep s).1.withBlock r (q ++ [(audioStep s).2]) := by
  have hout : (audioStep s).1.out = s.out := by simp
  rw [runSubStep, State.withBlock, audioStep_setOut, audioStep_respond, State.withBlock, hout]
  rfl

/-- The samples of a block, and as many AUDIO commands, from states that differ in those two registers only. -/
theorem runSubSteps_samples_withBlock (n : Nat) (h : s.sched = []) (r : Byte) (q : List Byte) :
    ∃ u, execAll (List.replicate n .audio) s = .next u ∧
      runSubSteps (List.replicate n .sample) (s.withBlock r q) = u.withBlock r (q ++ audioResponses n s) := by
  induction n generalizing s q with
  | zero => exact ⟨s, rfl, by rw [audioResponses, List.append_nil]; rfl⟩
  | succ n ih =>
    have hsched : ((audioStep s).1.respond (audioStep s).2).sched = [] := by simpa [State.respond] using h
    obtain ⟨u, hall, hrun⟩ := ih hsched (q ++ [(audioStep s).2])
    refine ⟨u, by rw [List.replicate_succ, execAll_cons_of_next (execAudio_eq s), hall], ?_⟩
    rw [respond_withBlock, audioResponses_eq, audioSamples_respond, List.append_assoc] at hrun
    rw [List.replicate_succ, runSubSteps_cons_of_sched_nil (s := s.withBlock r q) h, runSubStep_sample_withBlock, hrun,
      audioResponses_eq]
    rfl

/-- Settles O54: a started block is CONTROL's sub-steps, which push nothing, then the samples of its audio ticks. -/
theorem renderBlockIsControlAndAudioTicks : Obligations.RenderBlockIsControlAndAudioTicks := by
  refine fun s => ⟨fun hfull => congrArg _ (if_neg ?_), fun hfit hsched => ?_⟩
  · rw [roomForBlock_iff]
    omega
  obtain ⟨c, hc⟩ : ∃ c, runSubSteps cvWrites (controlCore s) = c := ⟨_, rfl⟩
  have hcore : runSubSteps (.core :: cvWrites) s = c := (runSubSteps_cons_of_sched_nil hsched _ _).trans hc
  obtain ⟨hring, hidle⟩ := runSubSteps_ring_of_sched_nil (ks := .core :: cvWrites) (by decide) hsched
  obtain ⟨-, hresp⟩ := runSubSteps_frame (.core :: cvWrites) s
  rw [hcore] at hring hidle hresp
  obtain ⟨u, hall, hrun⟩ := runSubSteps_samples_withBlock s.cfg.blockSize hidle s.eng.resp s.out.ring
  have hexec : exec .renderBlock s = .next (runSubSteps (blockSteps s.cfg) s) :=
    congrArg Host.Outcome.next (if_pos ((roomForBlock_iff s).mpr hfit))
  refine ⟨_, c, u, hexec, hc ▸ execControl_eq s, hall, ?_⟩
  calc runSubSteps (blockSteps s.cfg) s
    _ = runSubSteps (List.replicate s.cfg.blockSize .sample) c := by
      rw [← hcore]
      exact runSubSteps_append (.core :: cvWrites) _ s
    _ = runSubSteps (List.replicate s.cfg.blockSize .sample) (c.withBlock s.eng.resp s.out.ring) := by
      rw [← hresp, ← hring, withBlock_self]
    _ = u.withBlock s.eng.resp (s.out.ring ++ audioResponses s.cfg.blockSize c) := hrun

end Sys2Proof.Machine
end

section
/-! The SysEx receiver command by command (46_patch_transfer.md R491 to R503): the steps of SYSEX_BYTE, what SYSEX_END answers
to each transfer, and a frame with one data byte changed. -/

namespace Sys2Proof.Machine

variable {c : Config} {r : Receiver} {s : State} {p : List Byte} {b : Byte} {j : Nat}

/-! ## One SYSEX_BYTE (R492) -/

theorem storeU16_succ {reg : Reg16} {x : Half} (h : x.toNat < 65535) : storeU16 reg (x.toNat + 1) = x + 1 := by
  refine BitVec.eq_of_toNat_eq ?_
  rw [storeU16_toNat (by omega), BitVec.toNat_add, show (1 : Half).toNat = 1 from rfl]
  omega

theorem byteStep_of_closed (h : r.state = .idle ∨ r.state = .success ∨ r.state = .error) : r.byteStep c b = r := by
  rcases h with h | h | h <;> simp only [Receiver.byteStep, h]

theorem byteStep_header_mismatch {x : Byte} (hr : r.state = .header) (hx : c.sysexHeader[r.pos.toNat]? = some x)
    (hne : b ≠ x) : r.byteStep c b = r.fail := by
  have hmiss : b ≠ headerByte c r.pos.toNat := by rwa [headerByte, hx, Option.getD_some]
  simp only [Receiver.byteStep, hr, Receiver.headerStep, if_pos hmiss]

theorem byteStep_header_match (hr : r.state = .header) (hb : c.sysexHeader[r.pos.toNat]? = some b)
    (hfit : r.pos.toNat < 65535) :
    r.byteStep c b = if r.pos.toNat + 1 = c.sysexHeader.length then { r with state := .data, pos := 0 }
      else { r with pos := r.pos + 1 } := by
  have hmatch : headerByte c r.pos.toNat = b := by rw [headerByte, hb, Option.getD_some]
  have hnext : (r.pos + 1).toNat = r.pos.toNat + 1 := by
    rw [← storeU16_succ (reg := .rxPos) hfit, storeU16_toNat (by omega)]
  simp only [Receiver.byteStep, hr, Receiver.headerStep, hmatch, ne_eq, not_true_eq_false, if_false, storeU16_succ hfit, hnext]

theorem byteStep_not_nibble (hr : r.state = .data) (hb : 0x0F < b.toNat) : r.byteStep c b = r.fail := by
  simp only [Receiver.byteStep, hr, Receiver.dataStep, if_pos hb]

theorem toNat_lowNibble_of_le (hb : b.toNat ≤ 0x0F) : (b.extractLsb' 0 4).toNat = b.toNat := by
  rw [lowNibble_toNat]
  omega

theorem setWidth_lowNibble_of_le (hb : b.toNat ≤ 0x0F) : BitVec.setWidth 8 (b.extractLsb' 0 4) = b := by
  refine BitVec.eq_of_toNat_eq ?_
  rw [BitVec.toNat_setWidth, toNat_lowNibble_of_le hb]
  omega

theorem nibblePair_toNat (hi lo : BitVec 4) : (nibblePair hi lo).toNat = hi.toNat * 16 + lo.toNat := by
  rw [nibblePair, BitVec.toNat_append, Nat.shiftLeft_eq, Nat.mul_comm,
    Nat.two_pow_add_eq_or_of_lt lo.isLt hi.toNat]

theorem nibblePair_lowNibble_toNat (hi : BitVec 4) (hb : b.toNat ≤ 0x0F) :
    (nibblePair hi (b.extractLsb' 0 4)).toNat = hi.toNat * 16 + b.toNat := by
  rw [nibblePair_toNat, toNat_lowNibble_of_le hb]

/-- A nibble has its effect at its position, and the position advances. -/
theorem byteStep_data {r' : Receiver} (hr : r.state = .data) (hb : b.toNat ≤ 0x0F) (hfit : r.pos.toNat < 65535)
    (h : r.nibbleAt c r.pos.toNat (b.extractLsb' 0 4) = some r') : r.byteStep c b = { r' with pos := r.pos + 1 } := by
  rw [← storeU16_succ hfit, ← byteStep_nibble hr rfl h, setWidth_lowNibble_of_le hb]

theorem byteStep_data_high {k : Nat} (hr : r.state = .data) (hb : b.toNat ≤ 0x0F) (hfit : r.pos.toNat < 65535)
    (hpos : r.pos.toNat = 2 * k) (hk : k ≤ patchSize c) :
    r.byteStep c b = { r with hi := b.extractLsb' 0 4, pos := r.pos + 1 } :=
  byteStep_data hr hb hfit (hpos ▸ nibbleAt_high hk _)

theorem byteStep_data_low {k : Nat} (hr : r.state = .data) (hb : b.toNat ≤ 0x0F) (hfit : r.pos.toNat < 65535)
    (hpos : r.pos.toNat = 2 * k + 1) (hk : k < patchSize c) :
    r.byteStep c b = { r with
      buf := Memory.write rxDefaultByte r.buf k (nibblePair r.hi (b.extractLsb' 0 4))
      sum := r.sum + nibblePair r.hi (b.extractLsb' 0 4)
      pos := r.pos + 1 } :=
  byteStep_data hr hb hfit (hpos ▸ nibbleAt_low hk _)

theorem byteStep_checksum_low (hr : r.state = .data) (hb : b.toNat ≤ 0x0F) (hfit : r.pos.toNat < 65535)
    (hpos : r.pos.toNat = 2 * patchSize c + 1) :
    r.byteStep c b = { r with cks := nibblePair r.hi (b.extractLsb' 0 4), pos := r.pos + 1 } :=
  byteStep_data hr hb hfit (hpos ▸ nibbleAt_checksum_low _)

theorem byteStep_past_checksum (hr : r.state = .data) (hpos : 2 * patchSize c + 2 ≤ r.pos.toNat) :
    r.byteStep c b = r.fail := by
  have hnone : r.nibbleAt c r.pos.toNat (b.extractLsb' 0 4) = none := by
    unfold Receiver.nibbleAt frameNibbles
    rw [if_neg (by omega), if_neg (by omega), if_neg (by omega)]
  simp only [Receiver.byteStep, hr, Receiver.dataStep, hnone, ite_self]

theorem exec_sysexByte (b : Byte) (s : State) : exec (.sysexByte b) s = .next (s.setRx (s.rx.byteStep s.cfg b)) := rfl

/-- Settles O57: each clause is the equation of `byteStep` for its state and position. -/
theorem sysexReceiverSteps : Obligations.SysexReceiverSteps := by
  refine fun s b => ⟨rfl, fun hclosed => ?_, fun x hr hx hfit => ?_, fun hr hb => ?_, fun hr hb hfit hstores => ?_⟩
  · rw [exec_sysexByte, byteStep_of_closed hclosed]
    rfl
  · rw [exec_sysexByte]
    split
    · next hne => rw [byteStep_header_mismatch hr hx hne]; rfl
    · next heq => rw [byteStep_header_match hr (hx.trans (congrArg some (not_not.mp heq).symm)) hfit]; rfl
  · rw [exec_sysexByte, byteStep_not_nibble hr hb]
    rfl
  · refine ⟨_, exec_sysexByte b s, rfl, fun hj heven => ?_, fun hj hodd => ?_, fun hj => ?_, fun hj => ?_, fun hj => ?_⟩
    · rw [byteStep_data_high (k := s.rx.pos.toNat / 2) hr hb hfit (by omega) (by omega)]
      exact ⟨rfl, toNat_lowNibble_of_le hb⟩
    · rw [byteStep_data_low (k := s.rx.pos.toNat / 2) hr hb hfit (by omega) (by omega)]
      refine ⟨rfl, ?_, fun a ha => Memory.read_write_other ha, ?_⟩
      · rw [← nibblePair_lowNibble_toNat s.rx.hi hb]
        exact congrArg BitVec.toNat (Memory.read_write_self hstores.2)
      · rw [setRx_rx, BitVec.toNat_add, nibblePair_lowNibble_toNat s.rx.hi hb]
    · rw [byteStep_data_high hr hb hfit hj (le_refl _)]
      exact ⟨rfl, toNat_lowNibble_of_le hb⟩
    · rw [byteStep_checksum_low hr hb hfit hj]
      exact ⟨rfl, nibblePair_lowNibble_toNat s.rx.hi hb⟩
    · rw [byteStep_past_checksum hr hj]
      rfl

/-! ## SYSEX_END (R495, R500, R501) -/

theorem validBuf_iff {f : Nat → Byte} :
    validBuf c f = true ↔ (∀ i < 31, (f i).toNat < 0x80) ∧ ∀ i < 8, (f (patchSize c - 8 + i)).toNat < 0x80 := by
  have hname : patchSize c - 8 = offName c := Nat.add_sub_cancel _ _
  simp only [validBuf, hname, Bool.and_eq_true, List.all_eq_true, List.mem_range, decide_eq_true_eq]

theorem transferOk_iff : transferOk s = true ↔
    s.rx.state = .data ∧ s.rx.pos.toNat = 2 * patchSize s.cfg + 2 ∧ s.rx.cks = s.rx.sum ∧
      (∀ i < 31, (readRx s i).toNat < 0x80) ∧ ∀ i < 8, (readRx s (patchSize s.cfg - 8 + i)).toNat < 0x80 := by
  rw [transferOk, Bool.and_eq_true, Bool.and_eq_true, Bool.and_eq_true, validBuf_iff, decide_eq_true_eq, decide_eq_true_eq,
    decide_eq_true_eq, frameNibbles, and_assoc, and_assoc]

theorem sysexEndBody_of_closed (hheader : s.rx.state ≠ .header) (hdata : s.rx.state ≠ .data) : sysexEndBody s = s := by
  rw [sysexEndBody, if_neg (not_or.mpr ⟨hheader, hdata⟩)]

theorem sysexEndBody_of_open_not_ok (hopen : s.rx.state = .header ∨ s.rx.state = .data) (h : ¬ transferOk s = true) :
    sysexEndBody s = s.setRx s.rx.fail := by
  rw [sysexEndBody, if_pos hopen, if_neg h]

theorem commit_frame (s : State) : (commit s).rx = s.rx ∧ (commit s).ctl = s.ctl := by simp [commit]

theorem commit_eq (s : State) : commit s = recomputeAll { s with patch := (commit s).patch } := by
  rw [commit, (recomputeAll_frame _).2.1]

/-- A commit writes the voice's algorithms and its envelopes' increments and levels alone (R442, R212). -/
theorem commit_voice (s : State) :
    (commit s).voice = { s.voice with
      osc1 := { s.voice.osc1 with alg := (commit s).voice.osc1.alg }
      osc2 := { s.voice.osc2 with alg := (commit s).voice.osc2.alg }
      env1 := { (commit s).voice.env1 with stage := s.voice.env1.stage, value := s.voice.env1.value }
      env2 := { (commit s).voice.env2 with stage := s.voice.env2.stage, value := s.voice.env2.value } } := rfl

/-- Settles O58: `transferOk` decides, and the commit is `recompute_all()` over the received patch. -/
theorem sysexEndCommitsOrRejects : Obligations.SysexEndCommitsOrRejects := by
  intro s
  refine ⟨fun hheader hdata => ?_, fun hopen hbad => ?_, fun hgood => ?_⟩
  · exact congrArg Host.Outcome.next (sysexEndBody_of_closed hheader hdata)
  · exact congrArg Host.Outcome.next (sysexEndBody_of_open_not_ok hopen (mt transferOk_iff.mp hbad))
  · have hexec : exec .sysexEnd s = .next ((commit s).setRx { (commit s).rx with state := .success }) :=
      congrArg Host.Outcome.next (sysexEndBody_of_transferOk (transferOk_iff.mpr hgood))
    obtain ⟨hrx, hctl⟩ := commit_frame s
    refine ⟨_, hexec, ?_, fun i hi => readPatch_commit (s := s) hi, ?_, ?_, ?_, rfl, rfl⟩
    · rw [setRx_rx, hrx]
    · rw [setRx_patch, ← commit_eq]
      rfl
    · rw [setRx_voice]
      exact commit_voice s
    · rw [setRx_ctl, hctl]

/-! ## One data byte changed (R503) -/

theorem byteSum_append_cons (p q : List Byte) (x : Byte) : byteSum (p ++ x :: q) = byteSum (p ++ q) + x := by
  have hsum : ∀ l : List Byte, byteSum l = l.sum := fun l => List.sum_eq_foldl.symm
  simp only [hsum, List.sum_append, List.sum_cons]
  abel

theorem nibbleBytes_nibblePair (hi lo : BitVec 4) :
    nibbleBytes (nibblePair hi lo) = [BitVec.setWidth 8 hi, BitVec.setWidth 8 lo] := by
  rw [nibbleBytes, nibblePair, BitVec.extractLsb'_append_eq_left, BitVec.extractLsb'_append_eq_right]

/-- A nibble in place of a data byte is the data of a patch with one byte replaced. -/
theorem exists_set_flatMap_nibbleBytes (hb : b.toNat ≤ 0x0F) (hj : j < 2 * p.length) :
    ∃ pre x y post, p = pre ++ x :: post ∧ (p.flatMap nibbleBytes).set j b = (pre ++ y :: post).flatMap nibbleBytes := by
  induction p generalizing j with
  | nil => exact absurd hj (Nat.not_lt_zero j)
  | cons x p ih =>
    match j with
    | 0 =>
      refine ⟨[], x, nibblePair (b.extractLsb' 0 4) (x.extractLsb' 0 4), p, rfl, ?_⟩
      simp only [List.nil_append, List.flatMap_cons, nibbleBytes_nibblePair, setWidth_lowNibble_of_le hb]
      rfl
    | 1 =>
      refine ⟨[], x, nibblePair (x.extractLsb' 4 4) (b.extractLsb' 0 4), p, rfl, ?_⟩
      simp only [List.nil_append, List.flatMap_cons, nibbleBytes_nibblePair, setWidth_lowNibble_of_le hb]
      rfl
    | j + 2 =>
      obtain ⟨pre, y, z, post, hp, hset⟩ := ih (j := j) (by rw [List.length_cons] at hj; omega)
      refine ⟨x :: pre, y, z, post, congrArg (x :: ·) hp, ?_⟩
      rw [List.cons_append, List.flatMap_cons, List.flatMap_cons, ← hset]
      rfl

theorem length_flatMap_nibbleBytes (p : List Byte) : (p.flatMap nibbleBytes).length = 2 * p.length := by
  induction p with
  | nil => rfl
  | cons x p ih =>
    rw [List.flatMap_cons, List.length_append, ih, List.length_cons, nibbleBytes, List.length_cons, List.length_singleton]
    omega

theorem lt_length_loadPatchCommands (hj : j < 2 * p.length) :
    1 + c.sysexHeader.length + j < (loadPatchCommands c p).length := by
  rw [← length_flatMap_nibbleBytes] at hj
  simp only [loadPatchCommands_eq, frameBytes, List.length_cons, List.length_append, List.length_map]
  omega

/-- LOAD_PATCH with one data byte replaced, as the bytes it sends. -/
theorem loadPatchCommands_set (hj : j < 2 * p.length) :
    (loadPatchCommands c p).set (1 + c.sysexHeader.length + j) (.sysexByte b) =
      .sysexStart :: ((c.sysexHeader ++ ((p.flatMap nibbleBytes).set j b ++ nibbleBytes (byteSum p))).map .sysexByte
        ++ [.sysexEnd]) := by
  have hdata : j < (p.flatMap nibbleBytes).length := by rwa [length_flatMap_nibbleBytes]
  have hframe : (frameBytes c p (byteSum p)).set (c.sysexHeader.length + j) b =
      c.sysexHeader ++ ((p.flatMap nibbleBytes).set j b ++ nibbleBytes (byteSum p)) := by
    rw [frameBytes, List.set_append_right _ _ (Nat.le_add_right _ _), Nat.add_sub_cancel_left, List.set_append_left _ _ hdata]
  have hlt : c.sysexHeader.length + j < ((frameBytes c p (byteSum p)).map Instr.sysexByte).length := by
    rw [List.length_map, frameBytes, List.length_append, List.length_append]
    omega
  rw [loadPatchCommands_eq, show 1 + c.sysexHeader.length + j = c.sysexHeader.length + j + 1 by omega, List.set_cons_succ,
    List.set_append_left _ _ hlt, ← List.map_set, hframe]

theorem nibbleAt_state {r' : Receiver} {n : BitVec 4} (h : r.nibbleAt c j n = some r') : r'.state = r.state := by
  unfold Receiver.nibbleAt at h
  split at h
  · split at h <;> (cases h; rfl)
  · split at h
    · cases h; rfl
    · split at h
      · cases h; rfl
      · cases h

theorem byteStep_data_or_error (hr : r.state = .data ∨ r.state = .error) (b : Byte) :
    (r.byteStep c b).state = .data ∨ (r.byteStep c b).state = .error := by
  rcases hr with hr | hr
  · simp only [Receiver.byteStep, hr, Receiver.dataStep]
    split
    · exact .inr rfl
    · split
      · next hn => exact .inl ((nibbleAt_state hn).trans hr)
      · exact .inr rfl
  · rw [byteStep_of_closed (.inr (.inr hr))]
    exact .inr hr

theorem foldl_byteStep_of_error (hr : r.state = .error) (bs : List Byte) : bs.foldl (Receiver.byteStep c) r = r := by
  induction bs with
  | nil => rfl
  | cons d bs ih => rw [List.foldl_cons, byteStep_of_closed (.inr (.inr hr)), ih]

/-- Once the header is complete, a byte that is no nibble leaves the transfer in ERROR for good (R492). -/
theorem foldl_byteStep_not_nibble {bs : List Byte} (hr : r.state = .data ∨ r.state = .error) (hmem : b ∈ bs)
    (hb : 0x0F < b.toNat) : (bs.foldl (Receiver.byteStep c) r).state = .error := by
  induction bs generalizing r with
  | nil => exact absurd hmem List.not_mem_nil
  | cons d bs ih =>
    rw [List.foldl_cons]
    rcases List.mem_cons.mp hmem with rfl | hmem
    · have herror : (r.byteStep c b).state = .error := by
        rcases hr with hr | hr
        · rw [byteStep_not_nibble hr hb]; rfl
        · rwa [byteStep_of_closed (.inr (.inr hr))]
      rwa [foldl_byteStep_of_error herror]
    · exact ih (byteStep_data_or_error hr d) hmem

theorem foldl_byteStep_frame_not_nibble {bs : List Byte} (hne : c.sysexHeader ≠ []) (hheader : c.sysexHeader.length < 65536)
    (hmem : b ∈ bs) (hb : 0x0F < b.toNat) :
    ((c.sysexHeader ++ bs).foldl (Receiver.byteStep c) r.begin).state = .error := by
  rw [List.foldl_append, foldl_byteStep_header (pre := []) hheader hne (List.nil_append _).symm rfl rfl]
  exact foldl_byteStep_not_nibble (.inl rfl) hmem hb

/-- Settles O60: a byte that is no nibble stops the receiver, and another nibble changes the sum but not the checksum. -/
theorem singleNibbleCorruptionIsRejected : Obligations.SingleNibbleCorruptionIsRejected := by
  intro s p j b hstores hlen hne hheader hfit hj hother
  have hj' : j < 2 * p.length := hlen ▸ hj
  have hset := loadPatchCommands_set (c := s.cfg) (b := b) hj'
  by_cases hb : 0x0F < b.toNat
  · rw [hset, execAll_transfer]
    have hmem : b ∈ (p.flatMap nibbleBytes).set j b ++ nibbleBytes (byteSum p) :=
      List.mem_append_left _ (List.mem_set (by rwa [length_flatMap_nibbleBytes]) b)
    have herror := foldl_byteStep_frame_not_nibble (r := s.rx) hne hheader hmem hb
    generalize List.foldl _ _ _ = r at herror
    rw [sysexEndBody_of_closed (s := s.setRx r) (by simp [herror]) (by simp [herror])]
    exact ⟨_, rfl, herror, rfl⟩
  · obtain ⟨pre, x, y, post, rfl, hdata⟩ := exists_set_flatMap_nibbleBytes (Nat.not_lt.mp hb) hj'
    rw [hdata, ← frameBytes] at hset
    have hxy : x ≠ y := by
      rintro rfl
      have hsame := hset.trans (loadPatchCommands_eq _ _).symm
      exact hother (by rw [← hsame, List.getElem?_set_self (lt_length_loadPatchCommands hj')])
    have hsum : byteSum (pre ++ x :: post) ≠ byteSum (pre ++ y :: post) := by
      simpa [byteSum_append_cons] using hxy
    have hframe := holdsFrame_of_frameBytes (p := pre ++ y :: post) hstores.2 (by simpa using hlen) hne hheader hfit
      (byteSum (pre ++ x :: post))
    rw [hset, execAll_transfer]
    generalize List.foldl _ _ _ = r at hframe
    have hbad : transferOk (s.setRx r) = false := by
      rw [transferOk_of_holdsFrame (s := s.setRx r) hframe, decide_eq_false hsum, Bool.false_and]
    rw [sysexEndBody_of_not_transferOk hframe.state hbad]
    exact ⟨_, rfl, rfl, rfl⟩

end Sys2Proof.Machine
end

section
/-! The consumer step, the absence of faults and the state after reset (47_buffering.md R530, 60_exceptions.md R550,
70_reset_and_hazards.md R590 to R592): what a consumer step leaves, the port and the configuration under every command, and the
reset state as a fixed point of `recompute_all()`. -/

namespace Sys2Proof.Machine

variable {s t u : State}

/-! ## The consumer step (R530) -/

theorem consumerTick_displayTick (s : State) : (consumerTick s).out.displayTick = s.out.displayTick + 1 := by
  simp only [consumerTick, Output.popSample, Output.drivePins]
  split <;> rfl

/-- A consumer step writes the output side and the record of outputs, and of the output side not the registers that the host
writes (R557). -/
theorem consumerTick_eq (s : State) :
    consumerTick s = { s with
      out := { (consumerTick s).out with
        cvCutoff := s.out.cvCutoff
        cvResonance := s.out.cvResonance
        cvAmplitude := s.out.cvAmplitude }
      emitted := (consumerTick s).emitted } := by
  simp only [consumerTick, Output.popSample, Output.drivePins]
  split <;> rfl

/-- Settles O11: a step on a non-empty and on an empty ring buffer, then the pins, the display tick and the frame. -/
theorem consumerStepDrainsOneSample : Obligations.ConsumerStepDrainsOneSample := by
  intro s t
  obtain ⟨hcutoff, hresonance, hamplitude⟩ := consumerTick_pins s
  have hring : t.out.ring = s.out.ring.tail := consumerTick_ring s
  have haudio : t.out.audioOut = s.out.ring.head?.getD s.out.audioOut := consumerTick_audioOut s
  have hglitch : t.out.glitchCount = if s.out.ring = [] then s.out.glitchCount + 1 else s.out.glitchCount :=
    consumerTick_glitchCount s
  refine ⟨fun x rest h => ?_, fun h => ?_, hcutoff, hresonance, hamplitude, ?_, consumerTick_eq s⟩
  · rw [hring, haudio, hglitch, h]
    exact ⟨rfl, rfl, if_neg (List.cons_ne_nil x rest)⟩
  · rw [hring, haudio, hglitch, if_pos h, h]
    exact ⟨rfl, rfl, BitVec.toNat_add _ _⟩
  · rw [consumerTick_displayTick]
    exact BitVec.toNat_add _ _

/-! ## What no command changes: the port and the configuration (R550) -/

/-- The commands still to come and the configuration are those of the state before. -/
def SamePortCfg (s t : State) : Prop := t.port = s.port ∧ t.cfg = s.cfg

theorem SamePortCfg.refl (s : State) : SamePortCfg s s := ⟨rfl, rfl⟩

theorem SamePortCfg.trans (h1 : SamePortCfg s t) (h2 : SamePortCfg t u) : SamePortCfg s u := ⟨h2.1.trans h1.1, h2.2.trans h1.2⟩

theorem samePortCfg_onChannel (ch : BitVec 4) {f : State → State} (h : SamePortCfg s (f s)) :
    SamePortCfg s (onChannel ch f s) := by
  unfold onChannel
  split
  · exact h
  · exact .refl s

theorem samePortCfg_noteOnBody (k v : BitVec 7) (s : State) : SamePortCfg s (noteOnBody k v s) := by
  unfold noteOnBody
  split <;> simp [SamePortCfg]

theorem samePortCfg_ctlClock (s : State) : SamePortCfg s (ctlClock s) := by
  unfold ctlClock
  split
  · split <;> exact ⟨rfl, rfl⟩
  · exact .refl s

theorem samePortCfg_sysexEndBody (s : State) : SamePortCfg s (sysexEndBody s) := by
  simp only [sysexEndBody, commit]
  split
  · split <;> simp [SamePortCfg]
  · exact .refl s

theorem samePortCfg_runSubStep (k : SubStep) (s : State) : SamePortCfg s (runSubStep k s) := by
  cases k with
  | core | sample => simp [SamePortCfg, runSubStep, ringPush]
  | cutoff | resonance | amplitude => exact ⟨rfl, rfl⟩

theorem samePortCfg_runSubSteps (ks : List SubStep) (s : State) : SamePortCfg s (runSubSteps ks s) := by
  induction ks generalizing s with
  | nil => exact .refl s
  | cons k ks ih =>
    have hpreempt : SamePortCfg s (preempt s) := by simp [SamePortCfg]
    exact (hpreempt.trans (samePortCfg_runSubStep k _)).trans (ih _)

theorem samePortCfg_exec {i : Instr} (ht : exec i s = .next t) : SamePortCfg s t := by
  cases i <;> cases ht
  case noteOn ch k v => exact samePortCfg_onChannel ch (samePortCfg_noteOnBody k v s)
  case noteOff ch k _ => exact samePortCfg_onChannel ch (by simp [SamePortCfg])
  case controlChange ch k v => exact samePortCfg_onChannel ch (by simp [SamePortCfg])
  case pitchBend ch _ | allSoundOff ch | allNotesOff ch | resetAllControllers ch | omniModeOn ch | omniModeOff ch =>
    exact samePortCfg_onChannel ch ⟨rfl, rfl⟩
  case sysexEnd => exact samePortCfg_sysexEndBody s
  case setParameter idx val => simp [SamePortCfg]
  case clock => exact samePortCfg_ctlClock s
  case control => exact SamePortCfg.trans (by simp [SamePortCfg]) (samePortCfg_runSubSteps cvWrites (controlCore s))
  case audio => simp [SamePortCfg]
  case renderBlock =>
    split
    · exact samePortCfg_runSubSteps _ s
    · exact .refl s
  case nop | sysexStart | sysexByte _ | getParameter _ | start | stop | setCvInput _ _ => exact ⟨rfl, rfl⟩

theorem samePortCfg_runWord {w : Word} (ht : runWord w s = .next t) : SamePortCfg s t := by
  unfold runWord at ht
  split at ht
  · exact samePortCfg_exec ht
  · cases ht
    exact .refl s

/-- A state whose schedule does not name the consumer next has the host's turn next (R531). -/
theorem hostIsNext_or_consumer (s : State) : s.hostIsNext ∨ ∃ rest, s.sched = .consumer :: rest := by
  unfold State.hostIsNext
  rcases s.sched with - | ⟨- | -, rest⟩ <;> simp

/-- A turn takes the host's next word off the port, or no word. -/
theorem turn_cfg_port (ht : turn s = .next t) : t.cfg = s.cfg ∧ (t.port = s.port ∨ t.port = s.port.tail) := by
  rcases hostIsNext_or_consumer s with hhost | ⟨rest, hsched⟩
  · cases hp : s.port with
    | nil =>
      rw [turn_of_silent hhost hp] at ht
      cases ht
      exact ⟨rfl, .inl hp⟩
    | cons w rest =>
      rw [turn_of_presented hhost hp] at ht
      obtain ⟨hport, hcfg⟩ := samePortCfg_runWord ht
      exact ⟨hcfg, .inr hport⟩
  · rw [turn_of_consumer hsched] at ht
    cases ht
    simp

/-- Settles O7: every command, word and turn gives a next state, with the port and the configuration that its frame gives. -/
theorem noCommandStopsTheBlock : Obligations.NoCommandStopsTheBlock := by
  refine ⟨nofun, fun i s => ?_, fun w s => ?_, fun s hwf => ?_⟩
  · obtain ⟨t, ht⟩ := exec_eq_next i s
    exact ⟨t, ht, samePortCfg_exec ht⟩
  · obtain ⟨t, ht⟩ := runWord_eq_next w s
    exact ⟨t, ht, samePortCfg_runWord ht⟩
  · obtain ⟨t, ht⟩ := turn_eq_next s
    exact ⟨t, (step_of_wf hwf).trans ht, turn_cfg_port ht⟩

/-! ## The state after reset (R590 to R592) -/

/-- DEFAULT_PATCH gives both envelopes the times 0, 0 and 0 and the sustain 127 (R592). -/
theorem readPatch_resetOf_env (c : Config) (e : EnvId) :
    readPatch (State.resetOf c) (offEnv e) = 0 ∧ readPatch (State.resetOf c) (offEnv e + 1) = 0 ∧
      readPatch (State.resetOf c) (offEnv e + 2) = 127 ∧ readPatch (State.resetOf c) (offEnv e + 3) = 0 := by
  cases e <;> exact ⟨rfl, rfl, rfl, rfl⟩

theorem env_resetOf (c : Config) (e : EnvId) : (State.resetOf c).env e = Envelope.resetOf c := by
  cases e <;> rfl

theorem recomputedEnv_resetOf (c : Config) (e : EnvId) : recomputedEnv (State.resetOf c) e = Envelope.resetOf c := by
  obtain ⟨hattack, hdecay, hsustain, hrelease⟩ := readPatch_resetOf_env c e
  have hlevel : BitVec.ofNat 14 (low7 127 * 128) = 16256 := by decide
  rw [recomputedEnv, hattack, hdecay, hsustain, hrelease, env_resetOf, Envelope.recompute, hlevel]
  rfl

theorem lfoIncrement_resetOf (c : Config) (i : LfoId) : lfoIncrement (State.resetOf c) i = lfoRate c 16 := by
  have hrate : lfoRateOf (State.resetOf c) i = 16 := by cases i <;> rfl
  rw [lfoIncrement_of_free (by rw [isSynced_iff, hrate]; decide), hrate]
  rfl

theorem updateLfo_resetOf (c : Config) (i : LfoId) : updateLfo (State.resetOf c) i = State.resetOf c := by
  rw [updateLfo, lfoIncrement_resetOf]
  cases i <;> rfl

/-- The cached copies after reset are those of DEFAULT_PATCH, so recomputing them changes nothing (R443, R591). -/
theorem recomputeAll_resetOf (c : Config) : recomputeAll (State.resetOf c) = State.resetOf c := by
  have hosc1 : setupOsc1 (State.resetOf c) = State.resetOf c := rfl
  have hosc2 : setupOsc2 (State.resetOf c) = State.resetOf c := rfl
  have henvs : recomputeEnvs (State.resetOf c) = State.resetOf c := by
    rw [recomputeEnvs, recomputedEnv_resetOf, recomputedEnv_resetOf]
    rfl
  rw [recomputeAll, hosc1, hosc2, henvs, updateLfo_resetOf, updateLfo_resetOf]

theorem cachesCoherent_resetOf (c : Config) : (State.resetOf c).CachesCoherent :=
  recomputeAll_resetOf c ▸ cachesCoherent_recomputeAll (State.resetOf c)

theorem Envelope.ok_resetOf (c : Config) : (Envelope.resetOf c).ok :=
  ⟨envInc_le c 0, envInc_le c 0, envInc_le c 0, fun _ => rfl⟩

theorem Voice.ok_resetOf (c : Config) : (Voice.resetOf c).Ok where
  env1 := Envelope.ok_resetOf c
  env2 := Envelope.ok_resetOf c
  dead := fun _ => ⟨rfl, rfl⟩
  note := (by decide : 60 ≤ 163)
  sub := rfl

theorem inv_resetOf {c : Config} (h : c.wf = true) : (State.resetOf c).Inv := by
  obtain ⟨-, -, -, hclocks, hnoise, -⟩ := c.wf_iff.mp h
  exact {
    stores := ⟨rfl, rfl⟩
    ring := Nat.zero_le _
    held := HeldOk.nil
    counters := ⟨hnoise, hclocks, (by decide : (0xACE1 : Half) ≠ 0)⟩
    voice := voiceOk_iff.mpr (Voice.ok_resetOf c) }

/-- Settles O14: the empty stores and the zero counters are in range, and the copies are those `recompute_all()` leaves. -/
theorem resetMeetsTheInvariant : Obligations.ResetMeetsTheInvariant := fun c h => ⟨inv_resetOf h, cachesCoherent_resetOf c⟩

/-- The voice is dead after reset, so the first audio tick is silent (R340, R591). -/
theorem audioStep_resetOf_sample (c : Config) : (audioStep (State.resetOf c)).2 = 128 := by
  rw [audioStep_of_dead rfl]

/-- Settles O17: the registers are the fields of `State.resetOf`, in the statement's order. -/
theorem registersAfterReset : Obligations.RegistersAfterReset := by
  intro c s
  have hdst : ∀ d : Dest, s.voice.dst.get d = 0 := fun d => by cases d <;> rfl
  refine ⟨hdst, rfl, rfl, rfl, rfl, rfl, rfl,
    rfl, rfl, rfl, rfl, rfl, rfl, rfl, rfl, rfl, rfl, rfl,
    fun e => ?_,
    rfl, rfl, rfl, rfl, rfl, rfl, rfl, rfl, rfl, rfl, rfl, rfl, rfl, rfl,
    rfl, rfl, rfl, rfl, rfl, rfl, rfl, rfl, rfl, rfl, rfl, rfl,
    rfl, rfl, rfl, rfl, rfl, fun _ => rfl,
    rfl, rfl, rfl, rfl, rfl, rfl, rfl, rfl, rfl, rfl,
    recomputeAll_resetOf c, _, execAudio_eq s, audioStep_resetOf_sample c⟩
  rw [env_resetOf]
  exact ⟨rfl, rfl, rfl, rfl, rfl, rfl⟩

end Sys2Proof.Machine
end
